-- ==== Sys2Proof/Word.lean ====
section
/-! DEFINITION. The word and byte types of the block and the plain names of what they stand for
(spec/00_scope.md R7, R10, R11). Arithmetic on `Word` is `BitVec 32` arithmetic: `+` and `-` are modulo 2^32,
`^^^` and `|||` are bitwise, `<<<` and `>>>` are logical shifts truncated to 32 bits (R11). -/

namespace Sys2Proof

/-- The spec's `u32` (R7, R10): an unsigned 32-bit word. -/
abbrev Word := BitVec 32

/-- The spec's `u8` (R10): one byte. -/
abbrev Byte := BitVec 8

/-- A host address: the input address width AW is 32 bits (R8), address arithmetic is modulo 2^32. -/
abbrev Addr := BitVec 32

end Sys2Proof
end

