-- ==== Sys2Proof/Config.lean ====
section
/-! DEFINITION. The parameters the spec leaves open (spec/00_scope.md R9) and the model's free values.
Every constant of this file is opaque and has no body: nothing can be proved about its value, so a claim that
holds here holds for every choice of it. -/

namespace Sys2Proof

/-- `P_BASE` (R9, R21): the base address of the 256-byte register window in the host's address map, one for each engine of
the platform, since each has its own window (R212). OPEN. -/
opaque Config.pBase : Nat → Addr

/-- `P_INSTANCES` (R9, R212): how many independent engines the platform has. OPEN. -/
opaque Config.pInstances : Nat

/-- `P_STEP_CYCLES` less one (R9, R240). OPEN. -/
opaque Config.stepCyclesLessOne : Nat

/-- `P_STEP_CYCLES` (R9, R240): the clock cycles one engine step takes, at least 1. Timing only: no step reads it. -/
def Config.pStepCycles : Nat := Config.stepCyclesLessOne + 1

/-- The free words of the model: `freeWord e n` is the n-th draw of engine `e`. R234 and U2 (93_implementation_defined.md): the results
of a command whose input window the host wrote while BUSY are "draws (any value)". DESIGN CHOICE (the form of the draw):
an uninterpreted function of the engine and its counter `State.draws`. Log entry 3. -/
opaque Config.freeWord : Nat → Nat → Word

end Sys2Proof
end

