-- ==== Sys2Proof/Syntax.lean ====
section
/-! DEFINITION. The instructions of the block: one constructor per row of spec/opcode_table.json, and the three
encodings they are read from (spec/30_encoding.md R70). -/

namespace Sys2Proof

/-- The instructions: 4 command words (format CMD), 18 host accesses to the register window (formats MMIO-R and
MMIO-W) and 6 engine steps selected by the phase register (format PHASE). Offsets and phase codes that several
encodings share one row for are operands; a store carries its 32-bit data word. -/
inductive Instr where
  /-- NOP: the command word 0x00000000 (R107). -/
  | nop
  /-- HASH_SINGLE: the command word 0x00000001 (R108). -/
  | hashSingle
  /-- HASH_DUAL: the command word 0x00000002 (R109). -/
  | hashDual
  /-- ILLEGAL: any other command word `w` (R78, R201). -/
  | illegal (w : Word)
  /-- LW.CTRL: 32-bit load at offset 0x00 (R100). -/
  | lwCtrl
  /-- SW.CTRL: 32-bit store of the command word `w` at offset 0x00 (R104). -/
  | swCtrl (w : Word)
  /-- LW.STATUS: load at offset 0x04 (R101). -/
  | lwStatus
  /-- SW.STATUS: store at offset 0x04, ignored (R103). -/
  | swStatus (v : Word)
  /-- LW.SRC_ADDR: load at offset 0x08 (R100). -/
  | lwSrcAddr
  /-- SW.SRC_ADDR: store at offset 0x08 (R102). -/
  | swSrcAddr (v : Word)
  /-- LW.LEN: load at offset 0x0C (R100). -/
  | lwLen
  /-- SW.LEN: store at offset 0x0C (R102). -/
  | swLen (v : Word)
  /-- LW.SEED1: load at offset 0x10 (R100). -/
  | lwSeed1
  /-- SW.SEED1: store at offset 0x10 (R102). -/
  | swSeed1 (v : Word)
  /-- LW.SEED2: load at offset 0x14 (R100). -/
  | lwSeed2
  /-- SW.SEED2: store at offset 0x14 (R102). -/
  | swSeed2 (v : Word)
  /-- LW.RESULT0: load at offset 0x18 (R100). -/
  | lwResult0
  /-- SW.RESULT0: store at offset 0x18, ignored (R103). -/
  | swResult0 (v : Word)
  /-- LW.RESULT1: load at offset 0x1C (R100). -/
  | lwResult1
  /-- SW.RESULT1: store at offset 0x1C, ignored (R103). -/
  | swResult1 (v : Word)
  /-- LW.RESERVED: load at a reserved offset 0x20 to 0xFC (R100). -/
  | lwReserved (off : BitVec 8)
  /-- SW.RESERVED: store at a reserved offset 0x20 to 0xFC, ignored (R103). -/
  | swReserved (off : BitVec 8) (v : Word)
  /-- STEP.INIT: phase code 0b001 (R131). -/
  | stepInit
  /-- STEP.BLOCK: phase code 0b010 (R133). -/
  | stepBlock
  /-- STEP.TAIL: phase code 0b011 (R135). -/
  | stepTail
  /-- STEP.FINAL: phase code 0b100 (R137). -/
  | stepFinal
  /-- STEP.WB: phase code 0b101 (R138). -/
  | stepWb
  /-- PHASE.UNUSED: phase code 0b110 or 0b111 (R79). -/
  | phaseUnused (code : BitVec 3)
deriving DecidableEq, Repr

/-- The direction of a host access (R70): a load (R) or a store (W). -/
inductive Dir where
  | read
  | write
deriving DecidableEq, Repr

/-- A host access to the register window (R53, R70): its direction, how many bytes wide it is, the window offset OFF of
its first byte, and its data word (stores only; a load's is not looked at). The block defines only 4-byte accesses at
offsets that are multiples of 4; the others can be written down so that the model refuses them by name. -/
structure Access where
  dir  : Dir
  size : Nat
  off  : BitVec 8
  data : Word
deriving DecidableEq, Repr

/-- The three encodings of R70: what an instruction is decoded from. -/
inductive Fetched where
  /-- Format MMIO: a host access to the register window. -/
  | mmio (acc : Access)
  /-- Format CMD: the data word of a write to CTRL. -/
  | cmd (w : Word)
  /-- Format PHASE: the value of the `phase` register. -/
  | phase (code : BitVec 3)
deriving DecidableEq, Repr

/-- The four results of the command decoder (R71). -/
inductive Command where
  | nop
  | hashSingle
  | hashDual
  | illegal
deriving DecidableEq, Repr

end Sys2Proof
end

