-- ==== Sys2Proof/WellFormed.lean ====
section
/-! DEFINITION. Which terms of `Instr` are instructions of the block: the operands that stand for a whole group of
encodings lie in that group (spec/30_encoding.md R71, R76, R77). -/

namespace Sys2Proof

/-- The well-formed instructions. ILLEGAL holds a word the decoder does not know (R71: not 0, 1 or 2); a reserved offset
is a multiple of 4 in 0x20 to 0xFC (R76); an unused phase code is 0b110 or 0b111 (R77). -/
def Instr.wellFormed : Instr → Bool
  | .illegal w => w != 0#32 && w != 1#32 && w != 2#32
  | .lwReserved off => decide (0x20 ≤ off.toNat) && decide (off.toNat % 4 = 0)
  | .swReserved off _ => decide (0x20 ≤ off.toNat) && decide (off.toNat % 4 = 0)
  | .phaseUnused code => code == 0b110#3 || code == 0b111#3
  | .nop | .hashSingle | .hashDual
  | .lwCtrl | .swCtrl _ | .lwStatus | .swStatus _ | .lwSrcAddr | .swSrcAddr _ | .lwLen | .swLen _
  | .lwSeed1 | .swSeed1 _ | .lwSeed2 | .swSeed2 _ | .lwResult0 | .swResult0 _ | .lwResult1 | .swResult1 _
  | .stepInit | .stepBlock | .stepTail | .stepFinal | .stepWb => true

/-- The window's loads: what the decoder can answer for a load. -/
def Instr.isLoad : Instr → Bool
  | .lwCtrl | .lwStatus | .lwSrcAddr | .lwLen | .lwSeed1 | .lwSeed2 | .lwResult0 | .lwResult1 | .lwReserved _ => true
  | _ => false

/-- The window's stores: what the decoder can answer for a store. -/
def Instr.isStore : Instr → Bool
  | .swCtrl _ | .swStatus _ | .swSrcAddr _ | .swLen _ | .swSeed1 _ | .swSeed2 _ | .swResult0 _ | .swResult1 _
  | .swReserved _ _ => true
  | _ => false

/-- The engine's steps: what the decoder can answer for a phase code. -/
def Instr.isEngineStep : Instr → Bool
  | .stepInit | .stepBlock | .stepTail | .stepFinal | .stepWb | .phaseUnused _ => true
  | _ => false

end Sys2Proof
end

