-- ==== Sys2Proof/Decode.lean ====
section
/-! DEFINITION. Encodings (spec/30_encoding.md): the command decoder, the window offsets, the phase codes, one total
decoder over the three formats of R70, the encoder, and the same instructions as words numbered the way
spec/opcode_table.json numbers them. -/

namespace Sys2Proof

/-! ## Phase codes (R77) -/

/-- 0b000: the engine has no enabled transition. -/
@[simp] abbrev Phase.idle : BitVec 3 := 0b000#3
/-- 0b001, step rule R131. -/
@[simp] abbrev Phase.init : BitVec 3 := 0b001#3
/-- 0b010, step rule R133. -/
@[simp] abbrev Phase.block : BitVec 3 := 0b010#3
/-- 0b011, step rule R135. -/
@[simp] abbrev Phase.tail : BitVec 3 := 0b011#3
/-- 0b100, step rule R137. -/
@[simp] abbrev Phase.final : BitVec 3 := 0b100#3
/-- 0b101, step rule R138. -/
@[simp] abbrev Phase.wb : BitVec 3 := 0b101#3

/-! ## Window offsets (R21, R76) -/

@[simp] abbrev Off.ctrl : BitVec 8 := 0x00#8
@[simp] abbrev Off.status : BitVec 8 := 0x04#8
@[simp] abbrev Off.srcAddr : BitVec 8 := 0x08#8
@[simp] abbrev Off.len : BitVec 8 := 0x0C#8
@[simp] abbrev Off.seed1 : BitVec 8 := 0x10#8
@[simp] abbrev Off.seed2 : BitVec 8 := 0x14#8
@[simp] abbrev Off.result0 : BitVec 8 := 0x18#8
@[simp] abbrev Off.result1 : BitVec 8 := 0x1C#8

/-! ## The decoder -/

/-- The command decoder of R71, total: RSVD = w[31:4] non-zero, or OP in 0x3 to 0xF, is ILLEGAL (R72, R73). -/
def decodeCmd (w : Word) : Command :=
  if w = 0x00000000#32 then .nop
  else if w = 0x00000001#32 then .hashSingle
  else if w = 0x00000002#32 then .hashDual
  else .illegal

/-- Why a fetched encoding is no instruction. -/
inductive DecodeError where
  /-- A window access that is not an aligned 32-bit access (R53). -/
  | windowAccess
  /-- Phase code 0b000: the engine has no enabled step (R77, R130). -/
  | idle
deriving DecidableEq, Repr

/-- A command word as its opcode-table row (format CMD). -/
def decodeCommandWord (w : Word) : Instr :=
  match decodeCmd w with
  | .nop => .nop
  | .hashSingle => .hashSingle
  | .hashDual => .hashDual
  | .illegal => .illegal w

/-- A load at an aligned offset (R76, column R). -/
def decodeLoad (off : BitVec 8) : Instr :=
  if off = Off.ctrl then .lwCtrl
  else if off = Off.status then .lwStatus
  else if off = Off.srcAddr then .lwSrcAddr
  else if off = Off.len then .lwLen
  else if off = Off.seed1 then .lwSeed1
  else if off = Off.seed2 then .lwSeed2
  else if off = Off.result0 then .lwResult0
  else if off = Off.result1 then .lwResult1
  else .lwReserved off

/-- A store of `v` at an aligned offset (R76, column W). -/
def decodeStore (off : BitVec 8) (v : Word) : Instr :=
  if off = Off.ctrl then .swCtrl v
  else if off = Off.status then .swStatus v
  else if off = Off.srcAddr then .swSrcAddr v
  else if off = Off.len then .swLen v
  else if off = Off.seed1 then .swSeed1 v
  else if off = Off.seed2 then .swSeed2 v
  else if off = Off.result0 then .swResult0 v
  else if off = Off.result1 then .swResult1 v
  else .swReserved off v

/-- R53: the block defines only 32-bit accesses at offsets that are multiples of 4 (OFF[1:0] = 0b00). -/
def Access.defined (acc : Access) : Bool :=
  acc.size == 4 && acc.off.toNat % 4 == 0

/-- A host access to the window (format MMIO). -/
def decodeAccess (acc : Access) : Except DecodeError Instr :=
  if acc.defined then
    match acc.dir with
    | .read => .ok (decodeLoad acc.off)
    | .write => .ok (decodeStore acc.off acc.data)
  else .error .windowAccess

/-- A phase code (format PHASE, R77). -/
def decodePhase (code : BitVec 3) : Except DecodeError Instr :=
  if code = Phase.idle then .error .idle
  else if code = Phase.init then .ok .stepInit
  else if code = Phase.block then .ok .stepBlock
  else if code = Phase.tail then .ok .stepTail
  else if code = Phase.final then .ok .stepFinal
  else if code = Phase.wb then .ok .stepWb
  else .ok (.phaseUnused code)

/-- The decoder, total over the three formats of R70. -/
def decode : Fetched → Except DecodeError Instr
  | .mmio acc => decodeAccess acc
  | .cmd w => .ok (decodeCommandWord w)
  | .phase code => decodePhase code

/-! ## The encoder -/

/-- The aligned 32-bit load at `off` (R76). A load has no data word. -/
def encodeLoad (off : BitVec 8) : Fetched := .mmio { dir := .read, size := 4, off := off, data := 0#32 }

/-- The aligned 32-bit store of `v` at `off` (R76). -/
def encodeStore (off : BitVec 8) (v : Word) : Fetched := .mmio { dir := .write, size := 4, off := off, data := v }

/-- The encoding of each instruction, from the tables of R72, R76 and R77. -/
def encode : Instr → Fetched
  | .nop => .cmd 0x00000000#32
  | .hashSingle => .cmd 0x00000001#32
  | .hashDual => .cmd 0x00000002#32
  | .illegal w => .cmd w
  | .lwCtrl => encodeLoad 0x00#8
  | .swCtrl w => encodeStore 0x00#8 w
  | .lwStatus => encodeLoad 0x04#8
  | .swStatus v => encodeStore 0x04#8 v
  | .lwSrcAddr => encodeLoad 0x08#8
  | .swSrcAddr v => encodeStore 0x08#8 v
  | .lwLen => encodeLoad 0x0C#8
  | .swLen v => encodeStore 0x0C#8 v
  | .lwSeed1 => encodeLoad 0x10#8
  | .swSeed1 v => encodeStore 0x10#8 v
  | .lwSeed2 => encodeLoad 0x14#8
  | .swSeed2 v => encodeStore 0x14#8 v
  | .lwResult0 => encodeLoad 0x18#8
  | .swResult0 v => encodeStore 0x18#8 v
  | .lwResult1 => encodeLoad 0x1C#8
  | .swResult1 v => encodeStore 0x1C#8 v
  | .lwReserved off => encodeLoad off
  | .swReserved off v => encodeStore off v
  | .stepInit => .phase 0b001#3
  | .stepBlock => .phase 0b010#3
  | .stepTail => .phase 0b011#3
  | .stepFinal => .phase 0b100#3
  | .stepWb => .phase 0b101#3
  | .phaseUnused code => .phase code

/-! ## Words numbered as spec/opcode_table.json numbers them

The table gives a CMD row its 32-bit word, an MMIO row its offset in bits 7:0 and a PHASE row its code in bits 2:0. The
table's bits hold no direction and no format, so the words of a load, of a store and of a phase code overlap.
DESIGN CHOICE (log entry 7): the width picks the format, an 8-bit word is a phase code only where it is no aligned
offset, and a word wider than 32 bits is a whole MMIO access, with DATA in bits 39:8 and the direction in bit 40. -/

/-- The 41-bit word of a 32-bit access: OFF in bits 7:0, DATA in bits 39:8, 1 in bit 40 for a store. -/
def mmioTableWord (dir : Dir) (off : BitVec 8) (data : Word) : Nat :=
  off.toNat + data.toNat * 2 ^ 8 + (match dir with | .read => 0 | .write => 2 ^ 40)

/-- The encoding a table word of `nbits` bits stands for. -/
def tableFetch (nbits w : Nat) : Fetched :=
  if nbits < 8 then .phase (BitVec.ofNat 3 w)
  else if nbits = 8 then
    if w % 256 < 8 ∧ w % 4 ≠ 0 then .phase (BitVec.ofNat 3 w) else encodeLoad (BitVec.ofNat 8 w)
  else if nbits ≤ 32 then .cmd (BitVec.ofNat 32 w)
  else if w / 2 ^ 40 % 2 = 0 then encodeLoad (BitVec.ofNat 8 w)
  else encodeStore (BitVec.ofNat 8 w) (BitVec.ofNat 32 (w / 2 ^ 8))

/-- The instruction the decoder reads from a word of the opcode table. -/
def decodeTableWord (nbits w : Nat) : Option Instr :=
  match decode (tableFetch nbits w) with
  | .ok i => some i
  | .error _ => none

/-- How many bits, and which word: the instruction as one number, every operand in its place. -/
def encodeTableWord (i : Instr) : Nat × Nat :=
  match encode i with
  | .mmio acc => (48, mmioTableWord acc.dir acc.off acc.data)
  | .cmd w => (32, w.toNat)
  | .phase code => (3, code.toNat)

end Sys2Proof
end

