-- ==== Sys2Proof/Machine/State.lean ====
section
/-! DEFINITION. The state of one lookup3 engine as plain data (spec/10_state.md), the host memory it reads, the turns
that say which agent moves next, the reasons a step can stop, and the state after reset (R37). -/

namespace Sys2Proof.Machine

/-- LMODE and STATUS.MODE (R23, R30): 0 = single, 1 = dual. -/
inductive Mode where
  | single
  | dual
deriving DecidableEq, Repr

/-- The accumulator file (R31): three 32-bit registers A, B, C, reached only by the engine's steps. -/
structure Accs where
  a : Word
  b : Word
  c : Word
deriving DecidableEq, Repr

/-- The operands latched at acceptance (R30): LSRC, LLEN, LSEED1, LSEED2, LMODE. The host cannot address them. -/
structure Latches where
  src   : Word
  len   : Word
  seed1 : Word
  seed2 : Word
  mode  : Mode
deriving DecidableEq, Repr

/-- Host memory (R36): a byte-addressed space of 2^32 bytes, held as its cells that differ from `Memory.unlisted`
(Ops.lean), in rising order of address. -/
abbrev Memory := List Host.Cell

/-- A host bus access by address (R81: one bus transaction is a direction, an address and a data word): `size` bytes wide
at host address `addr`. -/
structure BusAccess where
  dir  : Dir
  size : Nat
  addr : Addr
  data : Word
deriving DecidableEq, Repr

/-- One atomic move of one agent (R15, R55, R130): the plain data that says who moves next. -/
inductive Turn where
  /-- The engine takes its enabled step; with `phase = IDLE` it has none and the turn passes (R130, R214). -/
  | engine
  /-- The host accesses the register window, by window offset (format MMIO, R70). -/
  | access (acc : Access)
  /-- The host issues the command word `w`: a write of `w` to CTRL, in format CMD (R17, R70). -/
  | command (w : Word)
  /-- The host accesses the window by its address in the host's address map, at `P_BASE` + offset (R21, R81). -/
  | bus (b : BusAccess)
  /-- The host writes one byte of its own memory (R59, R234). -/
  | memWrite (addr : Addr) (v : Byte)
  /-- Reset is asserted (R230). -/
  | reset
deriving DecidableEq, Repr

/-- The state of one engine and of what stands around it. -/
structure State where
  /-- SRC_ADDR (R24). -/
  srcAddr : Word
  /-- LEN (R25). -/
  len     : Word
  /-- SEED1 (R26). -/
  seed1   : Word
  /-- SEED2 (R27). -/
  seed2   : Word
  /-- RESULT0 (R28). -/
  result0 : Word
  /-- RESULT1 (R29). -/
  result1 : Word
  /-- STATUS.DONE (R23). -/
  done    : Bool
  /-- STATUS.ERR (R23). -/
  err     : Bool
  /-- STATUS.ERRCODE (R23, R203), four bits. -/
  errCode : BitVec 4
  /-- LSRC, LLEN, LSEED1, LSEED2, LMODE (R30). -/
  latch   : Latches
  /-- A, B, C (R31). -/
  accs    : Accs
  /-- The sequencer's phase (R32, R77), three bits. -/
  phase   : BitVec 3
  /-- K: the count of input bytes already absorbed (R32). -/
  k       : Word
  /-- REM: the count of input bytes not yet absorbed (R32). -/
  rem     : Word
  /-- Host memory, as the engine's read port sees it (R36). -/
  mem     : Memory
  /-- MODEL: the moves to come, first one first. Where the list is empty the engine moves (log entry 4). -/
  turns   : List Turn
  /-- MODEL: the values the window has answered the host's loads with, oldest first (log entry 5). -/
  answers : List Word
  /-- MODEL: the addresses the read port has driven, oldest first (D16: the read-port trace; log entry 6). -/
  reads   : List Addr
  /-- MODEL: the host wrote a byte of the running command's input window, so its results are draws (R234; log entry 3). -/
  spoiled : Bool
  /-- MODEL: how many free values have been drawn (log entry 3). -/
  draws   : Nat
  /-- MODEL: which engine of the platform this is, so which window is its own (R212; log entry 11). No register shows it. -/
  engineNo : Nat
deriving DecidableEq, Repr

/-- Why the machine stops with a fault. -/
inductive Fault where
  /-- Raised by PHASE.UNUSED: the phase register holds 0b110 or 0b111 (R79: such a state is ill-formed, "A model that meets
  one faults"). No run reaches it. Safe: the machine stops, and nothing is proved of what comes after. -/
  | unusedPhase
deriving DecidableEq, Repr

/-- Why a move has no meaning in the model. -/
inductive Refusal where
  /-- Raised by an arm of `exec` whose instruction has no meaning yet. No arm does. Safe. -/
  | notModelled (mnemonic : String)
  /-- Raised by the decoder for a window access that is not an aligned 32-bit access (R53: "A model refuses it (no meaning)
  and does not guess a value"; U3). Safe. -/
  | windowAccess
  /-- Raised for a bus access none of whose bytes lies in the register window: it does not reach the block, and the host's
  address map is the platform's (R57). The host's writes to its memory are `Turn.memWrite`. Safe. -/
  | outsideWindow
  /-- Raised by the decoder for phase code 0b000, which selects no step (R77). `step` never raises it: with
  `phase = IDLE` an engine turn passes. Safe. -/
  | noEnabledStep
deriving DecidableEq, Repr

/-- The outcome of one instruction or one move. -/
abbrev Result := Host.Outcome State Fault Refusal

/-- The state after reset (R37): every visible register 0, `phase` IDLE, LMODE 0. The hidden registers A, B, C, K, REM,
LSRC, LLEN, LSEED1 and LSEED2 are unspecified there ("a model may hold any value (0 is a valid choice)"): DESIGN CHOICE 0
(log entry 1). Memory lists nothing (log entry 2), and the model's own fields are empty, false and 0. -/
def State.reset : State where
  srcAddr := 0#32
  len     := 0#32
  seed1   := 0#32
  seed2   := 0#32
  result0 := 0#32
  result1 := 0#32
  done    := false
  err     := false
  errCode := 0#4
  latch   := { src := 0#32, len := 0#32, seed1 := 0#32, seed2 := 0#32, mode := .single }
  accs    := { a := 0#32, b := 0#32, c := 0#32 }
  phase   := 0b000#3
  k       := 0#32
  rem     := 0#32
  mem     := []
  turns   := []
  answers := []
  reads   := []
  spoiled := false
  draws   := 0
  engineNo := 0

end Sys2Proof.Machine
end

