-- ==== Sys2Proof/Machine/Flags.lean ====
section
/-! DEFINITION. The flags of STATUS (spec/10_state.md R23, R35): the derived BUSY flag, the width-1 image of MODE, and the
word a STATUS read returns (spec/40_commands.md R101). The block has no arithmetic condition codes (R35). -/

namespace Sys2Proof.Machine

/-- STATUS.BUSY is `phase != IDLE`; it has no storage of its own (R32). -/
def State.busy (s : State) : Bool := s.phase != Phase.idle

/-- LMODE as a bit: 0 = single, 1 = dual (R23). -/
def Mode.bit : Mode → Bool
  | .single => false
  | .dual => true

/-- `zext_32` of one bit. -/
def zextBit (b : Bool) : Word := (BitVec.ofBool b).setWidth 32

/-- The word a STATUS read returns (R101). -/
def State.statusWord (s : State) : Word :=
  (s.errCode.setWidth 32 <<< 4) ||| (zextBit s.latch.mode.bit <<< 3) ||| (zextBit s.err <<< 2)
    ||| (zextBit s.done <<< 1) ||| zextBit s.busy

/-- ERRCODE 0: no rejection since the last accepted command or reset (R203). -/
@[simp] abbrev ErrCode.none : BitVec 4 := 0#4
/-- ERRCODE 1: illegal command word (R201, R203). -/
@[simp] abbrev ErrCode.illegalCmd : BitVec 4 := 1#4
/-- ERRCODE 2: hash command while busy (R202, R203). -/
@[simp] abbrev ErrCode.busyCmd : BitVec 4 := 2#4

end Sys2Proof.Machine
end

