-- ==== Sys2Proof/Machine/Mix.lean ====
section
/-! DEFINITION. The datapath functions of spec/42_mix_final.md: the rotation of R12, the intermediate mixing round (R160)
and the final avalanche round (R162). -/

namespace Sys2Proof.Machine

/-- The 32-bit left rotation (R12, R165); every use has 1 ≤ k ≤ 31. -/
def rotl32 (x : Word) (k : Nat) : Word := (x <<< k) ||| (x >>> (32 - k))

/-- The intermediate mixing round: the 18 statements of R160 in order, each seeing the results of the earlier ones. -/
def mix (t : Accs) : Accs :=
  let a := t.a
  let b := t.b
  let c := t.c
  let a := a - c; let a := a ^^^ rotl32 c 4; let c := c + b
  let b := b - a; let b := b ^^^ rotl32 a 6; let a := a + c
  let c := c - b; let c := c ^^^ rotl32 b 8; let b := b + a
  let a := a - c; let a := a ^^^ rotl32 c 16; let c := c + b
  let b := b - a; let b := b ^^^ rotl32 a 19; let a := a + c
  let c := c - b; let c := c ^^^ rotl32 b 4; let b := b + a
  { a := a, b := b, c := c }

/-- The final avalanche round: the 14 statements of R162 in order (the spec's `final`). -/
def finalMix (t : Accs) : Accs :=
  let a := t.a
  let b := t.b
  let c := t.c
  let c := c ^^^ b; let c := c - rotl32 b 14
  let a := a ^^^ c; let a := a - rotl32 c 11
  let b := b ^^^ a; let b := b - rotl32 a 25
  let c := c ^^^ b; let c := c - rotl32 b 16
  let a := a ^^^ c; let a := a - rotl32 c 4
  let b := b ^^^ a; let b := b - rotl32 a 14
  let c := c ^^^ b; let c := c - rotl32 b 24
  { a := a, b := b, c := c }

end Sys2Proof.Machine
end

