-- ==== Sys2Proof/Machine/Operands.lean ====
section
/-! DEFINITION. Operand forms: the little-endian word (spec/00_scope.md R13), the three words of a block with its missing
bytes zero (spec/30_encoding.md R75), their absorption (spec/41_absorb_sequence.md R133, R135), and the addresses of the
bytes a step reads (spec/20_memory.md R51). The commands' operands are the latched registers (R74): no command word holds
an operand. -/

namespace Sys2Proof.Machine

/-- `zext_32` of a byte (R13). -/
def zextByte (b : Byte) : Word := b.setWidth 32

/-- The little-endian word of four bytes, `b0` the byte at the lowest offset (R13, R50). -/
def le32 (b0 b1 b2 b3 : Byte) : Word :=
  zextByte b0 ||| (zextByte b1 <<< 8) ||| (zextByte b2 <<< 16) ||| (zextByte b3 <<< 24)

/-- `blk(j)` of R75: the j-th byte of a block, zero where the block has no such byte. -/
def blk (d : List Byte) (j : Nat) : Byte := d.getD j 0x00#8

/-- The three words of a block (R75). -/
def blockWords (d : List Byte) : Accs where
  a := le32 (blk d 0) (blk d 1) (blk d 2) (blk d 3)
  b := le32 (blk d 4) (blk d 5) (blk d 6) (blk d 7)
  c := le32 (blk d 8) (blk d 9) (blk d 10) (blk d 11)

/-- Absorption: each word of the block is added into its accumulator, modulo 2^32 (R133, R135). -/
def Accs.absorb (t : Accs) (d : List Byte) : Accs where
  a := t.a + (blockWords d).a
  b := t.b + (blockWords d).b
  c := t.c + (blockWords d).c

/-- The initial accumulators of R131: `v = 0xdeadbeef + LLEN + LSEED1` in A and B, `v + LSEED2` in C. -/
def initAccs (len seed1 seed2 : Word) : Accs where
  a := 0xdeadbeef#32 + len + seed1
  b := 0xdeadbeef#32 + len + seed1
  c := 0xdeadbeef#32 + len + seed1 + seed2

/-- The addresses `(LSRC + K + j) mod 2^32` for j = 0 .. n-1 (R51, R133, R135). -/
def windowAddrs (src k : Word) (n : Nat) : List Addr :=
  (List.range n).map (fun j => src + k + BitVec.ofNat 32 j)

/-- Whether the address lies in the input window [LSRC, LSRC + LLEN) modulo 2^32 (R51, R234). -/
def inWindow (src len : Word) (addr : Addr) : Bool := decide ((addr - src).toNat < len.toNat)

end Sys2Proof.Machine
end

