-- ==== Sys2Proof/Machine/Ops.lean ====
section
/-! DEFINITION. The named operations over memory, registers and the sequencer that the meanings are written with. A
command error is the block's only exception (spec/60_exceptions.md): `State.cmdError` takes it, and there is no trap entry
and no return from one (R206, R207). -/

namespace Sys2Proof.Machine

/-! ## Host memory -/

/-- What an address that memory does not list reads as. DESIGN CHOICE (log entry 2): the spec gives host memory no
power-on contents, and a read always returns a byte (R216). -/
def Memory.unlisted : Byte := 0x00#8

/-- The byte at an address. -/
def Memory.read : Memory → Nat → Byte
  | [], _ => Memory.unlisted
  | (a, v) :: rest, addr => if a = addr then v else Memory.read rest addr

/-- A cell in front of a memory, left out where the byte is what an unlisted address reads as. -/
def Memory.cons (addr : Nat) (v : Byte) (m : Memory) : Memory :=
  if v = Memory.unlisted then m else (addr, v) :: m

/-- The memory with the byte at `addr` replaced by `v`, in canonical form again. -/
def Memory.write : Memory → Nat → Byte → Memory
  | [], addr, v => Memory.cons addr v []
  | (a, w) :: rest, addr, v =>
    if addr < a then Memory.cons addr v ((a, w) :: rest)
    else if addr = a then Memory.cons addr v rest
    else (a, w) :: Memory.write rest addr v

/-- Whether every listed address is at least `low`, the addresses strictly rise, lie in the 2^32-byte space (R36), and no
listed byte is what an unlisted address reads as. -/
def Memory.wfFrom (low : Nat) : Memory → Bool
  | [] => true
  | (a, v) :: rest =>
    decide (low ≤ a) && decide (a < 2 ^ 32) && (v != Memory.unlisted) && Memory.wfFrom (a + 1) rest

/-- The canonical form of memory. -/
def Memory.wf (m : Memory) : Bool := Memory.wfFrom 0 m

/-- Consecutive bytes placed from `addr` on, modulo 2^32 (R81's `mem` directive). -/
def Memory.place (m : Memory) (addr : Addr) : List Byte → Memory
  | [] => m
  | b :: rest => Memory.place (Memory.write m addr.toNat b) (addr + 1#32) rest

/-- `MemRead(addr, 1)` (R14, R216): the byte at a 32-bit address, always a byte. -/
def State.memRead (s : State) (addr : Addr) : Byte := s.mem.read addr.toNat

/-- The bytes at the addresses, in order, each read once through the read port. -/
def State.portBytes (s : State) (addrs : List Addr) : List Byte := addrs.map s.memRead

/-- The read port drives these addresses: the trace of the port grows by them (R51, R52, D16). -/
def State.drivePort (s : State) (addrs : List Addr) : State := { s with reads := s.reads ++ addrs }

/-- The host writes a byte of its memory. If the address lies in the window of a running command, the host has broken the
duty of R234 and the command's results are draws. -/
def State.hostStore (s : State) (addr : Addr) (v : Byte) : State :=
  { s with mem     := s.mem.write addr.toNat v,
           spoiled := s.spoiled || (s.busy && inWindow s.latch.src s.latch.len addr) }

/-! ## Host registers -/

/-- SRC_ADDR <- v (R102). -/
def State.setSrcAddr (s : State) (v : Word) : State := { s with srcAddr := v }
/-- LEN <- v (R102). -/
def State.setLen (s : State) (v : Word) : State := { s with len := v }
/-- SEED1 <- v (R102). -/
def State.setSeed1 (s : State) (v : Word) : State := { s with seed1 := v }
/-- SEED2 <- v (R102). -/
def State.setSeed2 (s : State) (v : Word) : State := { s with seed2 := v }

/-- A load is answered with `v`: the host gets it, and nothing of the block changes (R56, R100). -/
def State.answer (s : State) (v : Word) : State := { s with answers := s.answers ++ [v] }

/-- What a load of a location with no storage returns: CTRL and the reserved offsets (R22, R100). -/
def noStorage : Word := 0x00000000#32

/-! ## Commands -/

/-- `raise CmdError(code)` (R201, R202, R206): ERR and ERRCODE are set, nothing else changes. -/
def State.cmdError (s : State) (code : BitVec 4) : State := { s with err := true, errCode := code }

/-- The operands as acceptance latches them (R106): LSEED2 is SEED2 in dual mode and 0 in single mode. -/
def State.operands (s : State) (m : Mode) : Latches where
  src   := s.srcAddr
  len   := s.len
  seed1 := s.seed1
  seed2 := match m with
    | .single => 0x00000000#32
    | .dual => s.seed2
  mode  := m

/-- `accept(m)` (R106). A new command's window has not been written yet. -/
def State.accept (s : State) (m : Mode) : State :=
  { s with latch := s.operands m, done := false, err := false, errCode := ErrCode.none, phase := Phase.init,
           spoiled := false }

/-- `issue_hash(m)` (R105): BUSY_CMD where a command is running, else acceptance. -/
def issueHash (m : Mode) (s : State) : Result :=
  if s.busy then .next (s.cmdError ErrCode.busyCmd) else .next (s.accept m)

/-- A CTRL write of the word `w` (R104): decoded first, so that legality comes before the busy check (R204). -/
def presentCommand (w : Word) (s : State) : Result :=
  match decodeCmd w with
  | .illegal => .next (s.cmdError ErrCode.illegalCmd)
  | .nop => .next s
  | .hashSingle => issueHash .single s
  | .hashDual => issueHash .dual s

/-! ## The sequencer and the datapath -/

/-- `init_next(L)` (R132). -/
def initNext (len : Word) : BitVec 3 :=
  if len = 0#32 then Phase.wb else if 12 < len.toNat then Phase.block else Phase.tail

/-- `block_next(REM)` (R134), with REM already reduced. -/
def blockNext (rem : Word) : BitVec 3 := if 12 < rem.toNat then Phase.block else Phase.tail

/-- The effect of STEP.INIT (R131). -/
def State.initialise (s : State) : State :=
  { s with accs := initAccs s.latch.len s.latch.seed1 s.latch.seed2, k := 0#32, rem := s.latch.len,
           phase := initNext s.latch.len }

/-- The addresses a BLOCK step reads: the 12 bytes at offset K (R133). -/
def State.blockAddrs (s : State) : List Addr := windowAddrs s.latch.src s.k 12

/-- The effect of STEP.BLOCK on the datapath and the sequencer (R133). -/
def State.absorbBlock (s : State) : State :=
  { s with accs := mix (s.accs.absorb (s.portBytes s.blockAddrs)), k := s.k + 12#32, rem := s.rem - 12#32,
           phase := blockNext (s.rem - 12#32) }

/-- The addresses a TAIL step reads: for j in 0..11 those with j < n, where n = REM (R135). -/
def State.tailAddrs (s : State) : List Addr := windowAddrs s.latch.src s.k (min s.rem.toNat 12)

/-- The effect of STEP.TAIL on the datapath and the sequencer (R135): the bytes that are not read count as 0x00. -/
def State.absorbTail (s : State) : State :=
  { s with accs := s.accs.absorb (s.portBytes s.tailAddrs), k := s.k + s.rem, rem := 0#32, phase := Phase.final }

/-- The effect of STEP.FINAL (R137). -/
def State.avalanche (s : State) : State := { s with accs := finalMix s.accs, phase := Phase.wb }

/-- The words a WB step writes to RESULT0 and RESULT1: C, and B in dual mode or 0 in single mode (R138). The results of a
command whose window the host wrote while BUSY are two draws instead, in either mode (R234, U2). -/
def State.results (s : State) : Word × Word :=
  if s.spoiled then (Config.freeWord s.engineNo s.draws, Config.freeWord s.engineNo (s.draws + 1))
  else (s.accs.c, match s.latch.mode with
    | .single => 0x00000000#32
    | .dual => s.accs.b)

/-- The effect of STEP.WB (R138): DONE is set, `phase` is IDLE, so BUSY reads 0. The draws a spoiled command used are
counted. DEDUCED (log entry 23): A, B, C, K, REM and the latches keep what they hold, as R138's corner case says, where U1 and
D27 call their values after WB unspecified. -/
def State.writeBack (s : State) : State :=
  { s with result0 := s.results.1, result1 := s.results.2, done := true, phase := Phase.idle,
           draws := if s.spoiled then s.draws + 2 else s.draws }

/-! ## Reset and the bus -/

/-- Reset is asserted (R230, R231): every piece of the block's state takes its reset value, whatever the phase. Host memory,
the moves to come, what the host and the read port have seen, the draw counter and the engine's place in the platform are not
the block's (log entry 19). -/
def State.assertReset (s : State) : State :=
  { State.reset with
    mem := s.mem, turns := s.turns, answers := s.answers, reads := s.reads, draws := s.draws, engineNo := s.engineNo }

/-- `P_BASE` of this engine: the base of its own window (R21, R212). -/
def State.windowBase (s : State) : Addr := Config.pBase s.engineNo

/-- A bus access as an access to the register window at `base` (R21, R81): the window is the 256 bytes from `base` on. An
access that only its later bytes take into the window is no aligned 32-bit access (R53), and one that touches no byte of the
window does not reach the block (R57). That the window wraps past the top of the address space is the model's (log entry 8). -/
def BusAccess.resolve (b : BusAccess) (base : Addr) : Except Refusal Access :=
  let off := b.addr - base
  if off.toNat < 256 then .ok { dir := b.dir, size := b.size, off := off.setWidth 8, data := b.data }
  else if (base - b.addr).toNat < b.size then .error .windowAccess
  else .error .outsideWindow

/-- The refusal that a decoding error stands for. -/
def refusalOf : DecodeError → Refusal
  | .windowAccess => .windowAccess
  | .idle => .noEnabledStep

end Sys2Proof.Machine
end

