-- ==== Sys2Proof/Machine/Command.lean ====
section
/-! DEFINITION. The meanings of the command words (spec/40_commands.md R107 to R109, spec/60_exceptions.md R201). -/

namespace Sys2Proof.Machine

/-- NOP (R107): no state change, even while BUSY; it does not clear DONE or ERR. -/
def execNop (s : State) : Result := .next s

/-- HASH_SINGLE (R108): issued in single mode (R105). -/
def execHashSingle (s : State) : Result := issueHash .single s

/-- HASH_DUAL (R109): issued in dual mode (R105). -/
def execHashDual (s : State) : Result := issueHash .dual s

/-- ILLEGAL (R78, R201): CmdError(ILLEGAL_CMD), in any phase. The offending word is not kept. -/
def execIllegal (_w : Word) (s : State) : Result := .next (s.cmdError ErrCode.illegalCmd)

end Sys2Proof.Machine
end

