-- ==== Sys2Proof/Machine/Engine.lean ====
section
/-! DEFINITION. The meanings of the engine's steps, one per phase (spec/41_absorb_sequence.md R131 to R138), each one
atomic transition (R15, R130), total in every state (R200). -/

namespace Sys2Proof.Machine

/-- STEP.INIT (R131): initialise the accumulators, K and REM. -/
def execStepInit (s : State) : Result := .next s.initialise

/-- STEP.BLOCK (R133): read and absorb one intermediate 12-byte block, then mix. -/
def execStepBlock (s : State) : Result := .next (s.absorbBlock.drivePort s.blockAddrs)

/-- STEP.TAIL (R135): read and absorb the final block, zero-padded; no mix follows. -/
def execStepTail (s : State) : Result := .next (s.absorbTail.drivePort s.tailAddrs)

/-- STEP.FINAL (R137): the final avalanche round. -/
def execStepFinal (s : State) : Result := .next s.avalanche

/-- STEP.WB (R138): write the results and finish. -/
def execStepWb (s : State) : Result := .next s.writeBack

/-- PHASE.UNUSED (R79): a state holding such a phase code is ill-formed, and a model that meets one faults. -/
def execPhaseUnused (_code : BitVec 3) (_s : State) : Result := .fault .unusedPhase

end Sys2Proof.Machine
end

