-- ==== Sys2Proof/Machine/Mmio.lean ====
section
/-! DEFINITION. The meanings of the host's loads and stores to the register window (spec/40_commands.md R100 to R104). -/

namespace Sys2Proof.Machine

/-! ## Loads (R100, R101): the register's current value, no side effect -/

/-- LW.CTRL (R22, R100): CTRL has no storage. -/
def execLwCtrl (s : State) : Result := .next (s.answer noStorage)
/-- LW.STATUS (R101). -/
def execLwStatus (s : State) : Result := .next (s.answer s.statusWord)
/-- LW.SRC_ADDR (R100). -/
def execLwSrcAddr (s : State) : Result := .next (s.answer s.srcAddr)
/-- LW.LEN (R100). -/
def execLwLen (s : State) : Result := .next (s.answer s.len)
/-- LW.SEED1 (R100). -/
def execLwSeed1 (s : State) : Result := .next (s.answer s.seed1)
/-- LW.SEED2 (R100). -/
def execLwSeed2 (s : State) : Result := .next (s.answer s.seed2)
/-- LW.RESULT0 (R100): while BUSY, the previous command's result (R235). -/
def execLwResult0 (s : State) : Result := .next (s.answer s.result0)
/-- LW.RESULT1 (R100): while BUSY, the previous command's result (R235). -/
def execLwResult1 (s : State) : Result := .next (s.answer s.result1)
/-- LW.RESERVED (R21, R100): a reserved offset reads 0. -/
def execLwReserved (_off : BitVec 8) (s : State) : Result := .next (s.answer noStorage)

/-! ## Stores (R102, R103, R104) -/

/-- SW.CTRL (R104): the data word is a command word. -/
def execSwCtrl (w : Word) (s : State) : Result := presentCommand w s
/-- SW.STATUS (R103): ignored. -/
def execSwStatus (_v : Word) (s : State) : Result := .next s
/-- SW.SRC_ADDR (R102). -/
def execSwSrcAddr (v : Word) (s : State) : Result := .next (s.setSrcAddr v)
/-- SW.LEN (R102). -/
def execSwLen (v : Word) (s : State) : Result := .next (s.setLen v)
/-- SW.SEED1 (R102). -/
def execSwSeed1 (v : Word) (s : State) : Result := .next (s.setSeed1 v)
/-- SW.SEED2 (R102). -/
def execSwSeed2 (v : Word) (s : State) : Result := .next (s.setSeed2 v)
/-- SW.RESULT0 (R103): ignored. -/
def execSwResult0 (_v : Word) (s : State) : Result := .next s
/-- SW.RESULT1 (R103): ignored. -/
def execSwResult1 (_v : Word) (s : State) : Result := .next s
/-- SW.RESERVED (R103): ignored. -/
def execSwReserved (_off : BitVec 8) (_v : Word) (s : State) : Result := .next s

end Sys2Proof.Machine
end

