-- ==== Sys2Proof/Machine/Dispatch.lean ====
section
/-! DEFINITION. Dispatch: the meaning of each instruction, one arm per constructor. -/

namespace Sys2Proof.Machine

def exec (i : Instr) (s : State) : Host.Outcome State Fault Refusal :=
  match i with
  -- command words (format CMD)
  | .nop => Sys2Proof.Machine.execNop s
  | .hashSingle => Sys2Proof.Machine.execHashSingle s
  | .hashDual => Sys2Proof.Machine.execHashDual s
  | .illegal w => Sys2Proof.Machine.execIllegal w s
  -- host accesses to the register window (formats MMIO-R and MMIO-W)
  | .lwCtrl => Sys2Proof.Machine.execLwCtrl s
  | .swCtrl w => Sys2Proof.Machine.execSwCtrl w s
  | .lwStatus => Sys2Proof.Machine.execLwStatus s
  | .swStatus v => Sys2Proof.Machine.execSwStatus v s
  | .lwSrcAddr => Sys2Proof.Machine.execLwSrcAddr s
  | .swSrcAddr v => Sys2Proof.Machine.execSwSrcAddr v s
  | .lwLen => Sys2Proof.Machine.execLwLen s
  | .swLen v => Sys2Proof.Machine.execSwLen v s
  | .lwSeed1 => Sys2Proof.Machine.execLwSeed1 s
  | .swSeed1 v => Sys2Proof.Machine.execSwSeed1 v s
  | .lwSeed2 => Sys2Proof.Machine.execLwSeed2 s
  | .swSeed2 v => Sys2Proof.Machine.execSwSeed2 v s
  | .lwResult0 => Sys2Proof.Machine.execLwResult0 s
  | .swResult0 v => Sys2Proof.Machine.execSwResult0 v s
  | .lwResult1 => Sys2Proof.Machine.execLwResult1 s
  | .swResult1 v => Sys2Proof.Machine.execSwResult1 v s
  | .lwReserved off => Sys2Proof.Machine.execLwReserved off s
  | .swReserved off v => Sys2Proof.Machine.execSwReserved off v s
  -- engine steps (format PHASE)
  | .stepInit => Sys2Proof.Machine.execStepInit s
  | .stepBlock => Sys2Proof.Machine.execStepBlock s
  | .stepTail => Sys2Proof.Machine.execStepTail s
  | .stepFinal => Sys2Proof.Machine.execStepFinal s
  | .stepWb => Sys2Proof.Machine.execStepWb s
  | .phaseUnused code => Sys2Proof.Machine.execPhaseUnused code s

end Sys2Proof.Machine
end

