-- ==== Sys2Proof/Machine/Moves.lean ====
section
/-! DEFINITION. One move of one agent: which encoding a turn fetches, and what the turn does
(spec/30_encoding.md R70, spec/41_absorb_sequence.md R130, spec/70_reset_and_hazards.md R230). -/

namespace Sys2Proof.Machine

/-- The next move is taken off the list. -/
def State.popTurn (s : State) : State := { s with turns := s.turns.tail }

/-- Decode an encoding and run the instruction; an encoding that is no instruction is refused by name. -/
def runFetched (f : Fetched) (s : State) : Result :=
  match decode f with
  | .ok i => exec i s
  | .error e => .refused (refusalOf e)

/-- The engine's move (R130): the step its phase selects, and none with `phase = IDLE` (R214: nothing changes). -/
def engineMove (s : State) : Result :=
  if s.busy then runFetched (.phase s.phase) s else .next s

/-- The move of a turn. DESIGN CHOICE (log entry 21): in a state whose phase is one of the unused codes only the engine's move
faults (R79: the state is not stepped as any phase). The spec does not say what a host's move does there, and it runs as in any
state. -/
def runTurn (t : Turn) (s : State) : Result :=
  match t with
  | .engine => engineMove s
  | .access acc => runFetched (.mmio acc) s
  | .command w => runFetched (.cmd w) s
  | .bus b =>
    match b.resolve s.windowBase with
    | .ok acc => runFetched (.mmio acc) s
    | .error r => .refused r
  | .memWrite addr v => .next (s.hostStore addr v)
  | .reset => .next s.assertReset

/-- The state whose next move is the instruction of an encoding: a host access or a command word stands first among the
moves to come, and a phase code is in the phase register with the engine to move. -/
def State.placeFetch (s : State) (f : Fetched) : State :=
  match f with
  | .mmio acc => { s with turns := .access acc :: s.turns }
  | .cmd w => { s with turns := .command w :: s.turns }
  | .phase code => { s with phase := code, turns := .engine :: s.turns }

end Sys2Proof.Machine
end

