-- ==== Sys2Proof/Machine/Step.lean ====
section
/-! DEFINITION. One step of the machine: the first of the moves to come, and the engine's where none is listed
(spec/00_scope.md R15, spec/41_absorb_sequence.md R130). -/

namespace Sys2Proof.Machine

/-- One atomic move. A listed move is taken off the list before it runs; with none listed the engine moves, so that a run
whose list is finite never starves the engine (R130: weak fairness; log entry 4). -/
def step (s : State) : Host.Outcome State Fault Refusal :=
  match s.turns with
  | [] => engineMove s
  | t :: _ => runTurn t s.popTurn

/-- `s` with the instruction of a table word placed as its very next move (log entry 7). -/
def State.withFetchWord (s : State) (nbits w : Nat) : State := s.placeFetch (tableFetch nbits w)

end Sys2Proof.Machine
end

