-- ==== Sys2Proof/Machine/HostProgram.lean ====
section
/-! DEFINITION. The host-program notation of spec/30_encoding.md R81 and its pseudo-instructions (R82). A host program is
the host's, not the block's: its stores and loads are moves of the block's host, its branches and variables change only
the host. Register names are the offsets of Decode.lean, labels are line numbers. -/

namespace Sys2Proof.Machine

/-- The value a `sw` line stores: a literal or a host variable. -/
inductive HostVal where
  | lit (v : Word)
  | var (x : Nat)
deriving DecidableEq, Repr

/-- One line of a host program (R81). -/
inductive HostOp where
  /-- `sw REG, v`. -/
  | sw (off : BitVec 8) (v : HostVal)
  /-- `lw REG -> x`. -/
  | lw (off : BitVec 8) (x : Nat)
  /-- `bz x, mask, label`: if (x & mask) == 0 go to the label. -/
  | bz (x : Nat) (mask : Word) (label : Nat)
deriving DecidableEq, Repr

/-- A host in the middle of its program: the lines, the next line, and the variables set so far. -/
structure HostProg where
  ops  : List HostOp
  line : Nat
  vars : List (Nat × Word)
deriving DecidableEq, Repr

/-- A host variable; one never set holds 0 (DESIGN CHOICE, log entry 10). -/
def HostProg.get (h : HostProg) (x : Nat) : Word := (h.vars.lookup x).getD 0#32

/-- The value of a `sw` operand. -/
def HostProg.value (h : HostProg) : HostVal → Word
  | .lit v => v
  | .var x => h.get x

/-- A host and its engine. -/
structure System where
  host  : HostProg
  block : State
deriving DecidableEq, Repr

/-- One line of the host's program; past its end the host has no move. -/
def System.hostMove (y : System) : Host.Outcome System Fault Refusal :=
  match y.host.ops[y.host.line]? with
  | none => .next y
  | some (.sw off v) =>
    match runFetched (encodeStore off (y.host.value v)) y.block with
    | .next t => .next { host := { y.host with line := y.host.line + 1 }, block := t }
    | .fault r => .fault r
    | .refused r => .refused r
  | some (.lw off x) =>
    match runFetched (encodeLoad off) y.block with
    | .next t =>
      .next { host := { y.host with line := y.host.line + 1, vars := (x, t.answers.getLastD 0#32) :: y.host.vars },
              block := t }
    | .fault r => .fault r
    | .refused r => .refused r
  | some (.bz x mask label) =>
    if y.host.get x &&& mask = 0#32 then .next { y with host := { y.host with line := label } }
    else .next { y with host := { y.host with line := y.host.line + 1 } }

/-- The engine's move beside a host program. -/
def System.engineMove (y : System) : Host.Outcome System Fault Refusal :=
  match Sys2Proof.Machine.engineMove y.block with
  | .next t => .next { y with block := t }
  | .fault r => .fault r
  | .refused r => .refused r

/-- POLL x (R82), placed from line `at_` on: wait for DONE = 1. -/
def poll (at_ x : Nat) : List HostOp := [.lw Off.status x, .bz x 0x2#32 at_]

/-- The value a seed operand stores: without the operand, 0 (R82). -/
def seedOperand (seed : Option HostVal) : HostVal := seed.getD (.lit 0x00000000#32)

/-- HASH1 addr, len, seed (R82), placed from line `at_` on: STATUS goes to variable `s`, RESULT0 to `h`. Without a seed operand
it writes 0 to SEED1. -/
def hash1Lines (at_ : Nat) (addr len : HostVal) (seed : Option HostVal) (s h : Nat) : List HostOp :=
  [.sw Off.srcAddr addr, .sw Off.len len, .sw Off.seed1 (seedOperand seed), .sw Off.ctrl (.lit 0x00000001#32)]
    ++ poll (at_ + 4) s ++ [.lw Off.result0 h]

/-- HASH2 addr, len, s1, s2 (R82), placed from line `at_` on: RESULT0 goes to `h0`, RESULT1 to `h1`. Without seed operands it
writes 0 to SEED1 and SEED2. -/
def hash2Lines (at_ : Nat) (addr len : HostVal) (s1 s2 : Option HostVal) (s h0 h1 : Nat) : List HostOp :=
  [.sw Off.srcAddr addr, .sw Off.len len, .sw Off.seed1 (seedOperand s1), .sw Off.seed2 (seedOperand s2),
    .sw Off.ctrl (.lit 0x00000002#32)]
    ++ poll (at_ + 5) s ++ [.lw Off.result0 h0, .lw Off.result1 h1]

end Sys2Proof.Machine
end

