-- ==== Sys2Proof/Machine/Platform.lean ====
section
/-! DEFINITION. A platform of `P_INSTANCES` engines over one host memory (spec/60_exceptions.md R212): each engine has its
own window, registers, latches, accumulators, phase and STATUS, and they share nothing but the memory they only read. The
host reaches an engine by address, through that engine's window. -/

namespace Sys2Proof.Machine

/-- The engines of a platform. Each holds the host's memory as it sees it, and a move that writes it writes it for all. Which
move comes next is the argument of `Platform.step`; the engines' own lists of moves are not looked at (log entry 11). -/
abbrev Platform := List State

/-- One move on a platform. -/
inductive PlatformMove where
  /-- Engine `k` takes its enabled step (R130). -/
  | engine (k : Nat)
  /-- The host accesses a register window by address (R21, R81). -/
  | bus (b : BusAccess)
  /-- The host writes one byte of its memory (R59). -/
  | memWrite (addr : Addr) (v : Byte)
  /-- Reset of engine `k` is asserted (R230: reset is an input of the block). -/
  | reset (k : Nat)
deriving DecidableEq, Repr

/-- Every engine after reset, each under its own number. -/
def Platform.reset : Platform := (List.range Config.pInstances).map (fun k => { State.reset with engineNo := k })

/-- Whether some byte of a bus access lies in the window of an engine. -/
def State.windowReached (b : BusAccess) (e : State) : Bool :=
  match b.resolve e.windowBase with
  | .error .outsideWindow => false
  | _ => true

/-- The engine whose window a bus access reaches. Windows of one platform do not overlap where each is an engine's own; of
two that do, the model takes the lower number (log entry 11). -/
def Platform.target (p : Platform) (b : BusAccess) : Option Nat := p.findIdx? (State.windowReached b)

/-- The engine a move is made on, if it is one engine's. -/
def Platform.mover (p : Platform) : PlatformMove → Option Nat
  | .engine k => some k
  | .bus b => p.target b
  | .memWrite _ _ => none
  | .reset k => some k

/-- One engine makes a move of its own, and the others stay. A number that is no engine's has no move. -/
def Platform.moveOne (p : Platform) (k : Nat) (f : State → Result) : Host.Outcome Platform Fault Refusal :=
  match p[k]? with
  | none => .next p
  | some e =>
    match f e with
    | .next t => .next (p.set k t)
    | .fault r => .fault r
    | .refused r => .refused r

/-- One move on a platform. A bus access that reaches no engine's window is refused by name, as on one engine. -/
def Platform.step (m : PlatformMove) (p : Platform) : Host.Outcome Platform Fault Refusal :=
  match m with
  | .engine k => p.moveOne k (runTurn .engine)
  | .bus b =>
    match p.target b with
    | some k => p.moveOne k (runTurn (.bus b))
    | none => .refused .outsideWindow
  | .memWrite addr v => .next (p.map (fun e => e.hostStore addr v))
  | .reset k => p.moveOne k (runTurn .reset)

end Sys2Proof.Machine
end

