-- ==== Sys2Proof/Machine/Hash.lean ====
section
/-! DEFINITION. What a whole command computes (spec/41_absorb_sequence.md R140, R141) and the block partition and step
count of an input (R145), as pure functions of the input bytes. -/

namespace Sys2Proof.Machine

/-- The loop `while L - k > 12` of R141: the accumulators and the bytes left for the final block. `fuel` bounds the number of
blocks; the length of the data is always enough. -/
def absorbBlocks : Nat → List Byte → Accs → Accs × List Byte
  | 0, data, t => (t, data)
  | fuel + 1, data, t =>
    if 12 < data.length then absorbBlocks fuel (data.drop 12) (mix (t.absorb (data.take 12))) else (t, data)

/-- The accumulators at the end of H2, as the engine leaves them: no mixing for the empty input (R139, R141). DESIGN CHOICE
(log entry 22): the spec bounds the data to 2^32 - 1 bytes (R140, U12), and for more this takes the length modulo 2^32; no
command has such an input. -/
def hashAccs (data : List Byte) (s1 s2 : Word) : Accs :=
  let t := initAccs (BitVec.ofNat 32 data.length) s1 s2
  if data.isEmpty then t
  else
    let r := absorbBlocks data.length data t
    finalMix (r.1.absorb r.2)

/-- H2, the dual hash (R141): the final C and the final B. -/
def hash2 (data : List Byte) (s1 s2 : Word) : Word × Word :=
  ((hashAccs data s1 s2).c, (hashAccs data s1 s2).b)

/-- H1, the single hash (R140): the first output of H2 with a second seed of 0. -/
def hash1 (data : List Byte) (s : Word) : Word := (hash2 data s 0x00000000#32).1

/-- nb(L) of R145: how many BLOCK steps an input of L bytes takes. -/
def blockCount (len : Nat) : Nat := if len ≤ 12 then 0 else (len - 1) / 12

/-- n(L) of R145: the length of the final block. -/
def finalBlockLength (len : Nat) : Nat := len - 12 * blockCount len

/-- steps(L) of R145: how many engine steps a command takes, in either mode. -/
def stepCount (len : Nat) : Nat := if len = 0 then 2 else blockCount len + 4

/-- The cycles a command takes (R240): timing only, no step reads it. -/
def commandCycles (len : Nat) : Nat := stepCount len * Config.pStepCycles

/-- `data[0] .. data[L-1]` of a source address and a length in a memory (R16, R51). -/
def inputBytes (m : Memory) (src len : Word) : List Byte :=
  (windowAddrs src 0#32 len.toNat).map (fun addr => m.read addr.toNat)

end Sys2Proof.Machine
end

