-- ==== Sys2Proof/Safety.lean ====
section
/-! DEFINITION. What counts as a safe state and a safe move, in the terms the claims use: the invariants of
spec/10_state.md R33, the host's duties of spec/60_exceptions.md R215, and what one engine step costs. -/

namespace Sys2Proof.Machine

/-- `n` steps of the machine from `s`, stopping at the first fault or refusal. -/
def State.run (n : Nat) (s : State) : Result := Host.Core.run Sys2Proof.core n s

/-- The run invariants of R33, from the end of INIT to WB. -/
abbrev State.RunInv (s : State) : Prop :=
  (s.phase ∈ [Phase.block, Phase.tail, Phase.final, Phase.wb] → s.k.toNat + s.rem.toNat = s.latch.len.toNat) ∧
  (s.phase ∈ [Phase.block, Phase.tail] → s.k.toNat % 12 = 0) ∧
  (s.phase = Phase.block → 12 < s.rem.toNat) ∧
  (s.phase = Phase.tail → 1 ≤ s.rem.toNat ∧ s.rem.toNat ≤ 12) ∧
  (s.phase = Phase.final → s.rem.toNat = 0 ∧ 0 < s.latch.len.toNat)

/-- The flags of STATUS say the same thing: ERR is set exactly where ERRCODE is 1 or 2 (R203), and DONE is never set while
BUSY is (R101). -/
abbrev State.FlagInv (s : State) : Prop :=
  (s.errCode = 0#4 ∨ s.errCode = 1#4 ∨ s.errCode = 2#4) ∧ (s.err = true ↔ s.errCode ≠ 0#4) ∧
  (s.done = true → s.busy = false)

/-- The invariant of the machine: the phase is one of the six codes of R77, the run and flag invariants hold, a command
running in single mode has no second seed (R30), and memory is in canonical form (log entry 2). -/
abbrev State.Inv (s : State) : Prop :=
  s.phase.toNat ≤ 5 ∧ s.RunInv ∧ s.FlagInv ∧ (s.busy = true → s.latch.mode = .single → s.latch.seed2 = 0#32) ∧ s.mem.wf = true

/-- A move that the host may make while a command runs over the input window of `src` and `len`, on the engine whose register
window is at `base` (R215): an aligned 32-bit access, a command
write, or a write of a byte outside the window. Reset, which abandons the command, and bus accesses that miss the window
are not among them. -/
def Turn.keepsDuty (base : Addr) (src len : Word) : Turn → Bool
  | .engine => true
  | .access acc => acc.defined
  | .command _ => true
  | .bus b => match b.resolve base with
    | .ok acc => acc.defined
    | .error _ => false
  | .memWrite addr _ => !inWindow src len addr
  | .reset => false

/-- The access to the register window that the next move makes, by offset or by bus address, if it makes one. -/
def State.nextAccess (s : State) : Option Access :=
  match s.turns with
  | .access acc :: _ => some acc
  | .bus b :: _ => (b.resolve s.windowBase).toOption
  | _ => none

/-- Whether a move is the engine's. -/
def Turn.isEngine : Turn → Bool
  | .engine => true
  | _ => false

/-- How many steps of a run are the engine's own, among the listed moves. -/
def engineTurns (ts : List Turn) : Nat := (ts.filter Turn.isEngine).length

end Sys2Proof.Machine
end

