-- ==== Sys2Proof/Certificates/Slice0/Obligations.lean ====
section
/-! DEFINITION. The statements about the model, for the provers. Each docstring names the rule of spec/ it formalises. -/

open Sys2Proof Sys2Proof.Machine

/-! ## Encoding -/

/-- A few words of R72, R76 and R77 decode to the instructions they stand for (sanity). The widths and the direction bit of
the wide form are the model's choice (log entry 7). -/
def Obligations.WordsOfTheTableDecode : Prop :=
  decodeTableWord 32 0x2 = some .hashDual ∧ decodeTableWord 32 0x11 = some (.illegal 0x11#32) ∧
  decodeTableWord 8 0x10 = some .lwSeed1 ∧ decodeTableWord 48 (0x08 + 5 * 2 ^ 8 + 2 ^ 40) = some (.swSrcAddr 5#32) ∧
  decodeTableWord 3 0b101 = some .stepWb ∧ decodeTableWord 8 0b110 = some (.phaseUnused 0b110#3)

/-- Decode and encode agree on every well-formed instruction and every operand value, over the three formats of R70 and over
the numbers of the opcode table. The numbers' layout is the model's choice (log entry 7). -/
def Obligations.EncodingsDecodeBack : Prop :=
  ∀ i : Instr, i.wellFormed = true →
    decode (encode i) = .ok i ∧ decodeTableWord (encodeTableWord i).1 (encodeTableWord i).2 = some i

/-- R71, R73: the command decoder reads OP = w[3:0], and any RSVD bit w[31:4] makes the word ILLEGAL. -/
def Obligations.CommandWordDecodesByOpAndRsvd : Prop :=
  ∀ w : Word, decodeCmd w =
    if w.extractLsb' 4 28 ≠ 0#28 then .illegal
    else if w.extractLsb' 0 4 = 0x0#4 then .nop
    else if w.extractLsb' 0 4 = 0x1#4 then .hashSingle
    else if w.extractLsb' 0 4 = 0x2#4 then .hashDual
    else .illegal

/-- What the decoder answers is always a well-formed instruction: reserved offsets, illegal words and unused phase codes do
not fall through to a neighbour, nor a neighbour to them (R71, R76, R77). -/
def Obligations.DecodedInstructionsAreWellFormed : Prop :=
  ∀ f i, decode f = .ok i → i.wellFormed = true

/-- R53: a window access that is not an aligned 32-bit access is refused, by offset or by bus address (one that starts below
the window and reaches into it too), and every aligned 32-bit access has a meaning in every state. That an access reaching in
from below is one to the window, and that the window wraps past the top of the address space, is the model's reading (DEDUCED,
log entry 8). -/
def Obligations.OnlyAlignedWordAccessesHaveMeaning : Prop :=
  (∀ (s : State) (b : BusAccess) (rest : List Turn) (d : Nat), s.turns = .bus b :: rest → 1 ≤ d → d < b.size → d < 2 ^ 32 →
    b.addr = s.windowBase - BitVec.ofNat 32 d → step s = .refused .windowAccess) ∧
  ∀ (s : State) (acc : Access) (rest : List Turn),
    (s.turns = .access acc :: rest ∨
      s.turns = .bus ⟨acc.dir, acc.size, s.windowBase + acc.off.setWidth 32, acc.data⟩ :: rest) →
    ((acc.size ≠ 4 ∨ acc.off.toNat % 4 ≠ 0) → step s = .refused .windowAccess) ∧
    (acc.size = 4 → acc.off.toNat % 4 = 0 → ∃ t, step s = .next t)

/-! ## The step -/

/-- A step runs the instruction that its move's encoding decodes to. A listed move is taken off the list first; with no move
listed the engine moves (log entry 4). -/
def Obligations.StepRunsTheDecodedInstruction : Prop :=
  ∀ (s : State) (rest : List Turn) (i : Instr),
    (∀ acc, s.turns = .access acc :: rest → decode (.mmio acc) = .ok i → step s = exec i { s with turns := rest }) ∧
    (∀ b acc, s.turns = .bus b :: rest → b.resolve s.windowBase = .ok acc → decode (.mmio acc) = .ok i →
      step s = exec i { s with turns := rest }) ∧
    (∀ w, s.turns = .command w :: rest → decode (.cmd w) = .ok i → step s = exec i { s with turns := rest }) ∧
    (s.turns = .engine :: rest → decode (.phase s.phase) = .ok i → step s = exec i { s with turns := rest }) ∧
    (s.turns = [] → decode (.phase s.phase) = .ok i → step s = exec i s)

/-- A placed table word is run by the very next step, from `s` itself, or, for a phase code, from `s` with that code in the
phase register. The placement is the model's choice (log entry 7). -/
def Obligations.PlacedTableWordRunsNext : Prop :=
  ∀ (s : State) (nbits w : Nat) (i : Instr), decodeTableWord nbits w = some i →
    step (s.withFetchWord nbits w) =
      exec i (match tableFetch nbits w with
        | .phase code => { s with phase := code }
        | _ => s)

/-- R130, R214: with phase = IDLE the engine has no enabled step, and its move leaves everything as it is. -/
def Obligations.IdleEngineMoveChangesNothing : Prop :=
  ∀ s : State, s.phase = 0b000#3 →
    (s.turns = [] → step s = .next s) ∧
    (∀ rest, s.turns = .engine :: rest → step s = .next { s with turns := rest })

/-- R21, R57: a bus access at P_BASE + OFF is the window access at OFF, of any width and in either direction. That the sum is
modulo 2^32, so that a window with P_BASE above 2^32 - 256 wraps, is the model's reading (DEDUCED, log entry 8). -/
def Obligations.BusAccessAtBaseIsTheWindowAccess : Prop :=
  ∀ (s : State) (acc : Access) (rest : List Turn),
    s.turns = .bus ⟨acc.dir, acc.size, s.windowBase + acc.off.setWidth 32, acc.data⟩ :: rest →
    step s = step { s with turns := .access acc :: rest }

/-! ## Loads and stores -/

/-- R100: every load is answered with the register's current value and changes nothing else, in any phase. -/
def Obligations.LoadsAnswerTheRegister : Prop :=
  ∀ s : State,
    exec .lwCtrl s = .next { s with answers := s.answers ++ [0x00000000#32] } ∧
    exec .lwStatus s = .next { s with answers := s.answers ++ [s.statusWord] } ∧
    exec .lwSrcAddr s = .next { s with answers := s.answers ++ [s.srcAddr] } ∧
    exec .lwLen s = .next { s with answers := s.answers ++ [s.len] } ∧
    exec .lwSeed1 s = .next { s with answers := s.answers ++ [s.seed1] } ∧
    exec .lwSeed2 s = .next { s with answers := s.answers ++ [s.seed2] } ∧
    exec .lwResult0 s = .next { s with answers := s.answers ++ [s.result0] } ∧
    exec .lwResult1 s = .next { s with answers := s.answers ++ [s.result1] } ∧
    (∀ off, exec (.lwReserved off) s = .next { s with answers := s.answers ++ [0x00000000#32] })

/-- R101: the word a STATUS load answers, field by field; bits 31:8 are 0; and DONE = 1 implies BUSY = 0 wherever the
machine's invariant holds. -/
def Obligations.StatusWordHoldsTheFlags : Prop :=
  ∀ s : State, ∃ w : Word, exec .lwStatus s = .next { s with answers := s.answers ++ [w] } ∧
    w.extractLsb' 4 4 = s.errCode ∧
    (w.getLsbD 3 = true ↔ s.latch.mode = .dual) ∧
    w.getLsbD 2 = s.err ∧
    w.getLsbD 1 = s.done ∧
    (w.getLsbD 0 = true ↔ s.phase ≠ 0b000#3) ∧
    w.extractLsb' 8 24 = 0#24 ∧
    (s.Inv → w.getLsbD 1 = true → w.getLsbD 0 = false)

/-- R102: a store to an operand register writes all 32 bits of it, whatever the phase, and changes nothing else. -/
def Obligations.OperandStoresWriteTheirRegister : Prop :=
  ∀ (s : State) (v : Word),
    exec (.swSrcAddr v) s = .next { s with srcAddr := v } ∧
    exec (.swLen v) s = .next { s with len := v } ∧
    exec (.swSeed1 v) s = .next { s with seed1 := v } ∧
    exec (.swSeed2 v) s = .next { s with seed2 := v }

/-- R103: a store to STATUS, RESULT0, RESULT1 or a reserved offset changes nothing, in any phase. -/
def Obligations.OtherStoresAreIgnored : Prop :=
  ∀ (s : State) (v : Word),
    exec (.swStatus v) s = .next s ∧ exec (.swResult0 v) s = .next s ∧ exec (.swResult1 v) s = .next s ∧
    (∀ off, exec (.swReserved off v) s = .next s)

/-- R76: the offset table, read through one step: what each aligned 32-bit access of the window does. -/
def Obligations.WindowAccessFollowsTheOffsetTable : Prop :=
  ∀ (s : State) (off : BitVec 8) (v : Word) (rest : List Turn), off.toNat % 4 = 0 →
    (s.turns = .access ⟨.read, 4, off, v⟩ :: rest →
      step s = .next { s with
        turns := rest,
        answers := s.answers ++ [
          if off = 0x04#8 then s.statusWord
          else if off = 0x08#8 then s.srcAddr
          else if off = 0x0C#8 then s.len
          else if off = 0x10#8 then s.seed1
          else if off = 0x14#8 then s.seed2
          else if off = 0x18#8 then s.result0
          else if off = 0x1C#8 then s.result1
          else 0x00000000#32] }) ∧
    (s.turns = .access ⟨.write, 4, off, v⟩ :: rest →
      step s =
        if off = 0x00#8 then exec (decodeCommandWord v) { s with turns := rest }
        else if off = 0x08#8 then .next { s with turns := rest, srcAddr := v }
        else if off = 0x0C#8 then .next { s with turns := rest, len := v }
        else if off = 0x10#8 then .next { s with turns := rest, seed1 := v }
        else if off = 0x14#8 then .next { s with turns := rest, seed2 := v }
        else .next { s with turns := rest })

/-! ## Commands and errors -/

/-- R107: NOP changes nothing, in any phase: it clears neither DONE nor ERR. -/
def Obligations.NopChangesNothing : Prop := ∀ s : State, exec .nop s = .next s

/-- R106: what acceptance latches and clears, for both commands; everything else stays, but for the model's own `spoiled`, on
which this statement says nothing. -/
def Obligations.IdleHashCommandIsAccepted : Prop :=
  ∀ s : State, s.phase = 0b000#3 → ∃ p,
    exec .hashSingle s = .next { s with
      latch := ⟨s.srcAddr, s.len, s.seed1, 0x00000000#32, .single⟩, done := false, err := false, errCode := 0#4,
      phase := 0b001#3, spoiled := p } ∧
    exec .hashDual s = .next { s with
      latch := ⟨s.srcAddr, s.len, s.seed1, s.seed2, .dual⟩, done := false, err := false, errCode := 0#4,
      phase := 0b001#3, spoiled := p }

/-- R202: a hash command while a command runs is dropped with BUSY_CMD; the running command goes on unchanged. -/
def Obligations.HashCommandWhileBusyIsDropped : Prop :=
  ∀ s : State, s.phase ≠ 0b000#3 →
    exec .hashSingle s = .next { s with err := true, errCode := 2#4 } ∧
    exec .hashDual s = .next { s with err := true, errCode := 2#4 }

/-- R201: an illegal command word sets ERR and ERRCODE 1 and nothing else, in any phase. -/
def Obligations.IllegalWordSetsOnlyTheError : Prop :=
  ∀ (s : State) (w : Word), exec (.illegal w) s = .next { s with err := true, errCode := 1#4 }

/-- R104, R105: a CTRL store does what its word's command does: legality first, then the busy check, then acceptance.
On the model's own `spoiled` after acceptance it says nothing. -/
def Obligations.CtrlStoreIssuesItsCommand : Prop :=
  ∀ (s : State) (w : Word), ∃ p,
    (w = 0#32 → exec (.swCtrl w) s = .next s) ∧
    (w = 1#32 → s.phase = 0b000#3 → exec (.swCtrl w) s = .next { s with
      latch := ⟨s.srcAddr, s.len, s.seed1, 0#32, .single⟩, done := false, err := false, errCode := 0#4,
      phase := 0b001#3, spoiled := p }) ∧
    (w = 2#32 → s.phase = 0b000#3 → exec (.swCtrl w) s = .next { s with
      latch := ⟨s.srcAddr, s.len, s.seed1, s.seed2, .dual⟩, done := false, err := false, errCode := 0#4,
      phase := 0b001#3, spoiled := p }) ∧
    (w = 1#32 ∨ w = 2#32 → s.phase ≠ 0b000#3 → exec (.swCtrl w) s = .next { s with err := true, errCode := 2#4 }) ∧
    (w ≠ 0#32 → w ≠ 1#32 → w ≠ 2#32 → exec (.swCtrl w) s = .next { s with err := true, errCode := 1#4 })

/-- R204: a hash command racing the WB step of the running command. Written before WB it is rejected with BUSY_CMD and the
running command completes; written after WB it is accepted, with all its operands and its mode latched, and the results of the
completed command stay. Both orders are runs of the model. The results WB writes are `State.results` (R138, and R234's draws);
on the model's own `draws` and, after acceptance, `spoiled` this statement says nothing. That A, B, C, K, REM and, before
acceptance, the latches are as before WB is the model's reading (DEDUCED, log entry 23). -/
def Obligations.CommandRacingWriteBackHasBothOutcomes : Prop :=
  ∀ (s : State) (w : Word) (rest : List Turn), s.phase = 0b101#3 → (w = 1#32 ∨ w = 2#32) →
    (s.turns = .command w :: .engine :: rest →
      ∃ d, State.run 2 s = .next { s with
        turns := rest, result0 := s.results.1, result1 := s.results.2, done := true, err := true, errCode := 2#4,
        phase := 0b000#3, draws := d }) ∧
    (s.turns = .engine :: .command w :: rest →
      ∃ d p, State.run 2 s = .next { s with
        turns := rest, result0 := s.results.1, result1 := s.results.2, done := false, err := false, errCode := 0#4,
        latch := ⟨s.srcAddr, s.len, s.seed1, if w = 2#32 then s.seed2 else 0#32, if w = 2#32 then .dual else .single⟩,
        phase := 0b001#3, draws := d, spoiled := p }) ∧
    (s.spoiled = false → s.results = (s.accs.c, if s.latch.mode = .dual then s.accs.b else 0#32))

/-! ## Engine steps -/

/-- R131, R132: what INIT writes and which phase follows. -/
def Obligations.InitStepSetsUpTheHash : Prop :=
  ∀ s : State, exec .stepInit s = .next { s with
    accs := ⟨0xdeadbeef#32 + s.latch.len + s.latch.seed1, 0xdeadbeef#32 + s.latch.len + s.latch.seed1,
             0xdeadbeef#32 + s.latch.len + s.latch.seed1 + s.latch.seed2⟩,
    k := 0#32,
    rem := s.latch.len,
    phase := if s.latch.len.toNat = 0 then 0b101#3 else if s.latch.len.toNat ≤ 12 then 0b011#3 else 0b010#3 }

/-- R133, R134: with REM > 12 (R33), BLOCK absorbs the 12 bytes at (LSRC + K + j) mod 2^32, little-endian, then mixes; the read port drives
those addresses once each, in an order on which this statement says nothing (R52). -/
def Obligations.BlockStepAbsorbsTwelveBytesAndMixes : Prop :=
  ∀ (s : State) (d : Nat → Byte), 12 < s.rem.toNat → (∀ j, d j = s.mem.read (s.latch.src + s.k + BitVec.ofNat 32 j).toNat) →
    ∃ rd : List Addr, rd.Perm ((List.range 12).map (fun j => s.latch.src + s.k + BitVec.ofNat 32 j)) ∧
    exec .stepBlock s = .next { s with
      accs := mix ⟨s.accs.a + le32 (d 0) (d 1) (d 2) (d 3), s.accs.b + le32 (d 4) (d 5) (d 6) (d 7),
                   s.accs.c + le32 (d 8) (d 9) (d 10) (d 11)⟩,
      k := s.k + 12#32,
      rem := s.rem - 12#32,
      phase := if 12 < (s.rem - 12#32).toNat then 0b010#3 else 0b011#3,
      reads := s.reads ++ rd }

/-- R135: TAIL absorbs the REM bytes left, the missing ones as 0x00, and reads only those it absorbs, once each, in an order
on which this statement says nothing (R52). -/
def Obligations.TailStepAbsorbsTheFinalBlock : Prop :=
  ∀ (s : State) (d : Nat → Byte), 1 ≤ s.rem.toNat → s.rem.toNat ≤ 12 →
    (∀ j, d j = if j < s.rem.toNat then s.mem.read (s.latch.src + s.k + BitVec.ofNat 32 j).toNat else 0x00#8) →
    ∃ rd : List Addr, rd.Perm ((List.range s.rem.toNat).map (fun j => s.latch.src + s.k + BitVec.ofNat 32 j)) ∧
    exec .stepTail s = .next { s with
      accs := ⟨s.accs.a + le32 (d 0) (d 1) (d 2) (d 3), s.accs.b + le32 (d 4) (d 5) (d 6) (d 7),
               s.accs.c + le32 (d 8) (d 9) (d 10) (d 11)⟩,
      k := s.k + s.rem,
      rem := 0#32,
      phase := 0b100#3,
      reads := s.reads ++ rd }

/-- R136: which bytes of a final block of n bytes reach which accumulator, byte by byte: byte j is shifted by 8 * (j mod 4)
and added, a byte the block does not have adds nothing, and a word of missing bytes leaves its accumulator alone. -/
def Obligations.TailBytesReachTheirAccumulator : Prop :=
  ∀ (s : State) (p : Nat → Word), 1 ≤ s.rem.toNat → s.rem.toNat ≤ 12 →
    (∀ j, p j = if j < s.rem.toNat then
        (s.mem.read (s.latch.src + s.k + BitVec.ofNat 32 j).toNat).setWidth 32 <<< (8 * (j % 4))
      else 0#32) →
    ∃ t, exec .stepTail s = .next t ∧
      t.accs.a = s.accs.a + p 0 + p 1 + p 2 + p 3 ∧
      t.accs.b = s.accs.b + p 4 + p 5 + p 6 + p 7 ∧
      t.accs.c = s.accs.c + p 8 + p 9 + p 10 + p 11 ∧
      (s.rem.toNat ≤ 4 → t.accs.b = s.accs.b) ∧ (s.rem.toNat ≤ 8 → t.accs.c = s.accs.c)

/-- R137: FINAL runs the avalanche round once and goes on to WB; and a command just accepted comes to FINAL exactly once, in
the last step but one, where its input is not empty, and never where it is. -/
def Obligations.FinalStepRunsTheAvalanche : Prop :=
  (∀ s : State, exec .stepFinal s = .next { s with accs := finalMix s.accs, phase := 0b101#3 }) ∧
  (∀ (s : State) (n : Nat), s.phase = 0b001#3 → s.turns = [] →
    ((∃ t, State.run n s = .next t ∧ t.phase = 0b100#3) ↔
      s.latch.len ≠ 0#32 ∧ n + 2 = stepCount s.latch.len.toNat))

/-- R138: WB writes the results of a command whose window the host left alone, sets DONE and goes to IDLE; ERR, ERRCODE and
the hidden registers keep their values. That the hidden registers do is R138's corner case, which the model follows where U1 and
D27 call their values after WB unspecified (DEDUCED, log entry 23). -/
def Obligations.WriteBackStepPublishesTheResults : Prop :=
  ∀ s : State, s.spoiled = false →
    exec .stepWb s = .next { s with
      result0 := s.accs.c,
      result1 := if s.latch.mode = .dual then s.accs.b else 0x00000000#32,
      done := true,
      phase := 0b000#3 }

/-- R234, U2: WB of a command whose window the host wrote while BUSY writes two draws, in either mode; everything else is as
R138 says. Which draws they are is the model's choice (log entry 3), and so are the hidden registers after WB (DEDUCED, log
entry 23). -/
def Obligations.WriteBackOfASpoiledCommandDraws : Prop :=
  ∀ s : State, s.spoiled = true →
    exec .stepWb s = .next { s with
      result0 := Config.freeWord s.engineNo s.draws,
      result1 := Config.freeWord s.engineNo (s.draws + 1),
      done := true,
      phase := 0b000#3,
      draws := s.draws + 2 }

/-- R234: a command is accepted unspoiled, and a host write spoils the running command exactly where its address is
(LSRC + i) mod 2^32 for some i < LLEN; in any case the byte is written and nothing else changes. `spoiled` is the model's own
(log entry 3). -/
def Obligations.HostWriteSpoilsOnlyTheRunningWindow : Prop :=
  (∀ (i : Instr) (s t : State), exec i s = .next t → s.phase = 0b000#3 → t.phase = 0b001#3 → t.spoiled = false) ∧
  ∀ (s : State) (addr : Addr) (v : Byte) (rest : List Turn), s.turns = .memWrite addr v :: rest →
    ∃ t, step s = .next t ∧
      t = { s with turns := rest, mem := s.mem.write addr.toNat v, spoiled := t.spoiled } ∧
      (t.spoiled = true ↔ s.spoiled = true ∨
        (s.phase ≠ 0b000#3 ∧ ∃ i : Nat, i < s.latch.len.toNat ∧ addr = s.latch.src + BitVec.ofNat 32 i))

/-- R79: the codes 0b110 and 0b111 fault, reset holds neither, and no step leads to one from a legal phase. -/
def Obligations.UnusedPhasesFaultAndAreNeverReached : Prop :=
  (∀ code s, exec (.phaseUnused code) s = .fault .unusedPhase) ∧
  (∀ s : State, (s.phase = 0b110#3 ∨ s.phase = 0b111#3) →
    (s.turns = [] → step s = .fault .unusedPhase) ∧
    (∀ rest, s.turns = .engine :: rest → step s = .fault .unusedPhase)) ∧
  State.reset.phase = 0b000#3 ∧
  (∀ s t : State, s.phase.toNat ≤ 5 → step s = .next t → t.phase.toNat ≤ 5)

/-! ## The mixing functions -/

/-- R160, R161: mix is six rows, each subtracting the source from the target, xoring the rotated source into the target and
adding a third word into the source; and R160's example. -/
def Obligations.MixRunsItsSixRows : Prop :=
  (∀ (row : Word → Word → Word → Nat → Word × Word),
    (∀ t s u r, row t s u r = ((t - s) ^^^ ((s <<< r) ||| (s >>> (32 - r))), s + u)) →
    ∀ a b c : Word,
      let r1 := row a c b 4
      let r2 := row b r1.1 r1.2 6
      let r3 := row r1.2 r2.1 r2.2 8
      let r4 := row r2.2 r3.1 r3.2 16
      let r5 := row r3.2 r4.1 r4.2 19
      let r6 := row r4.2 r5.1 r5.2 4
      mix ⟨a, b, c⟩ = ⟨r5.2, r6.2, r6.1⟩) ∧
  mix ⟨0x00000001#32, 0x00000002#32, 0x00000003#32⟩ = ⟨0x877d02a0#32, 0xcd175a8d#32, 0xe3fc5c22#32⟩

/-- R162 (and R163's rows): final is seven rows `t ^= s; t -= rotl32(s, r)`; and R162's example. -/
def Obligations.FinalRunsItsSevenRows : Prop :=
  (∀ (row : Word → Word → Nat → Word),
    (∀ t s r, row t s r = (t ^^^ s) - ((s <<< r) ||| (s >>> (32 - r)))) →
    ∀ a b c : Word,
      let c1 := row c b 14
      let a1 := row a c1 11
      let b1 := row b a1 25
      let c2 := row c1 b1 16
      let a2 := row a1 c2 4
      let b2 := row b1 a2 14
      let c3 := row c2 b2 24
      finalMix ⟨a, b, c⟩ = ⟨a2, b2, c3⟩) ∧
  finalMix ⟨0x00000001#32, 0x00000002#32, 0x00000003#32⟩ = ⟨0xc0bbac72#32, 0xd6302d23#32, 0x36ff91db#32⟩

/-- R164: mix and final are bijections on triples of words, and both leave the zero triple alone. -/
def Obligations.MixAndFinalAreBijections : Prop :=
  Function.Bijective mix ∧ Function.Bijective finalMix ∧
  mix ⟨0#32, 0#32, 0#32⟩ = ⟨0#32, 0#32, 0#32⟩ ∧ finalMix ⟨0#32, 0#32, 0#32⟩ = ⟨0#32, 0#32, 0#32⟩

/-- R165 (and R12): for 1 ≤ k ≤ 31, rotl32 is `(x << k) | (x >> (32 - k))`, it moves bit i to bit (i + k) mod 32, and so it
keeps the number of 1 bits; and R165's examples. -/
def Obligations.RotationKeepsTheBits : Prop :=
  (∀ (x : Word) (k : Nat), 1 ≤ k → k ≤ 31 →
    rotl32 x k = (x <<< k) ||| (x >>> (32 - k)) ∧
    (∀ i, i < 32 → (rotl32 x k).getLsbD ((i + k) % 32) = x.getLsbD i) ∧
    (Finset.univ.filter (fun i : Fin 32 => (rotl32 x k).getLsbD i.val = true)).card =
      (Finset.univ.filter (fun i : Fin 32 => x.getLsbD i.val = true)).card) ∧
  rotl32 0x80000000#32 4 = 0x00000008#32 ∧ rotl32 0x12345678#32 16 = 0x56781234#32 ∧
  rotl32 0xFFFFFFFF#32 19 = 0xFFFFFFFF#32

/-! ## Whole commands

`State.run n s` is n steps of the machine from s (`Host.Core.run` of `Sys2Proof.core`). -/

/-- R140, R141, R142, R145: a command just accepted, with no host move listed, takes steps(L) engine steps and leaves exactly
this: RESULT0 the final C and RESULT1 the final B (dual) or 0 (single) of the input bytes and the latched seeds, DONE set,
BUSY clear, the hidden registers at the end of the hash, one read of each window byte in order, and everything else as it
was. The values of the hidden registers after WB are the model's reading (DEDUCED, log entry 23), and so is the order of reads
within one step (DESIGN CHOICE, log entry 6). -/
def Obligations.QuietCommandComputesTheHash : Prop :=
  ∀ (s : State) (data : List Byte), s.phase = 0b001#3 → s.turns = [] → s.spoiled = false →
    data = inputBytes s.mem s.latch.src s.latch.len →
    State.run (stepCount s.latch.len.toNat) s = .next { s with
      result0 := (hash2 data s.latch.seed1 s.latch.seed2).1,
      result1 := if s.latch.mode = .dual then (hash2 data s.latch.seed1 s.latch.seed2).2 else 0x00000000#32,
      done := true,
      phase := 0b000#3,
      accs := hashAccs data s.latch.seed1 s.latch.seed2,
      k := s.latch.len,
      rem := 0#32,
      reads := s.reads ++ windowAddrs s.latch.src 0#32 s.latch.len.toNat }

/-- R142, R144, R237: whatever the host does meanwhile short of a reset, an undefined access or a write of the input window,
the command's results are H1 or H2 of the bytes and operands at acceptance: however its moves interleave with the engine's
steps(L) steps, the last of which is WB. -/
def Obligations.AnyInterleavingComputesTheHash : Prop :=
  ∀ (s : State) (ts rest : List Turn) (data : List Byte),
    s.phase = 0b001#3 → s.spoiled = false → (s.latch.mode = .single → s.latch.seed2 = 0#32) →
    s.mem.wf = true → data = inputBytes s.mem s.latch.src s.latch.len →
    s.turns = ts ++ .engine :: rest →
    (∀ u ∈ ts, u.keepsDuty s.windowBase s.latch.src s.latch.len = true) →
    engineTurns ts + 1 = stepCount s.latch.len.toNat →
    ∃ t, State.run (ts.length + 1) s = .next t ∧ t.turns = rest ∧ t.phase = 0b000#3 ∧ t.done = true ∧
      (s.latch.mode = .single → t.result0 = hash1 data s.latch.seed1 ∧ t.result1 = 0#32) ∧
      (s.latch.mode = .dual → (t.result0, t.result1) = hash2 data s.latch.seed1 s.latch.seed2)

/-- R51, R52: over the same runs the read port drives exactly the addresses (LSRC + i) mod 2^32 for 0 ≤ i < LLEN, each once
and in increasing i, and no other. Across steps that order is R52's; within one step it is the model's choice (DESIGN CHOICE,
log entry 6), for R52 calls it not observable. -/
def Obligations.EachWindowByteIsReadOnceInOrder : Prop :=
  ∀ (s : State) (ts rest : List Turn),
    s.phase = 0b001#3 → s.turns = ts ++ .engine :: rest →
    (∀ u ∈ ts, u.keepsDuty s.windowBase s.latch.src s.latch.len = true) →
    engineTurns ts + 1 = stepCount s.latch.len.toNat →
    ∃ t, State.run (ts.length + 1) s = .next t ∧
      t.reads = s.reads ++ (List.range s.latch.len.toNat).map (fun i => s.latch.src + BitVec.ofNat 32 i)

/-- R145, R235: before its last step a quiet command is still BUSY, and DONE and both results are those from before it; the
step count is the same in both modes. -/
def Obligations.CommandIsBusyUntilItsLastStep : Prop :=
  ∀ (s : State) (n : Nat), s.phase = 0b001#3 → s.turns = [] → n < stepCount s.latch.len.toNat →
    ∃ t, State.run n s = .next t ∧ t.phase ≠ 0b000#3 ∧ t.done = s.done ∧ t.result0 = s.result0 ∧ t.result1 = s.result1

/-- R139: the empty input takes INIT and WB only; no byte is read and nothing is mixed. -/
def Obligations.EmptyInputIsNotMixed : Prop :=
  ∀ s : State, s.phase = 0b001#3 → s.turns = [] → s.spoiled = false → s.latch.len = 0#32 →
    (s.latch.mode = .single → s.latch.seed2 = 0#32) →
    ∃ t, State.run 2 s = .next t ∧ t.phase = 0b000#3 ∧ t.done = true ∧ t.reads = s.reads ∧
      (s.latch.mode = .single → t.result0 = 0xdeadbeef#32 + s.latch.seed1 ∧ t.result1 = 0#32) ∧
      (s.latch.mode = .dual → t.result0 = 0xdeadbeef#32 + s.latch.seed1 + s.latch.seed2 ∧
        t.result1 = 0xdeadbeef#32 + s.latch.seed1)

/-- R144: two commands with the same latched length, seeds, mode and input bytes write the same results, wherever their bytes
stand and whatever else differs. -/
def Obligations.ResultsDependOnlyOnTheInput : Prop :=
  ∀ s s' : State,
    s.phase = 0b001#3 → s'.phase = 0b001#3 → s.turns = [] → s'.turns = [] → s.spoiled = false → s'.spoiled = false →
    s'.latch.len = s.latch.len → s'.latch.seed1 = s.latch.seed1 → s'.latch.seed2 = s.latch.seed2 →
    s'.latch.mode = s.latch.mode →
    (∀ i : Nat, i < s.latch.len.toNat →
      s'.mem.read (s'.latch.src + BitVec.ofNat 32 i).toNat = s.mem.read (s.latch.src + BitVec.ofNat 32 i).toNat) →
    ∃ t t', State.run (stepCount s.latch.len.toNat) s = .next t ∧ State.run (stepCount s.latch.len.toNat) s' = .next t' ∧
      t'.result0 = t.result0 ∧ t'.result1 = t.result1

/-- R143, C1: for every s1 the first output of H2 agrees with H1 on all data exactly where the second seed is 0; and R143's
example. -/
def Obligations.DualAgreesWithSingleOnlyForSeedZero : Prop :=
  (∀ s1 s2 : Word, (∀ data : List Byte, (hash2 data s1 s2).1 = hash1 data s1) ↔ s2 = 0#32) ∧
  (hash2 [] 0#32 1#32).1 = 0xdeadbef0#32 ∧ hash1 [] 0#32 = 0xdeadbeef#32

/-- R109, R143: issued from the same idle state with SEED2 = 0, HASH_SINGLE and HASH_DUAL end, after the same number of
steps, with the same RESULT0. -/
def Obligations.SingleAndDualShareTheirFirstResult : Prop :=
  ∀ s : State, s.phase = 0b000#3 → s.turns = [] → s.seed2 = 0#32 →
    ∃ s1 s2 t1 t2, exec .hashSingle s = .next s1 ∧ exec .hashDual s = .next s2 ∧
      State.run (stepCount s.len.toNat) s1 = .next t1 ∧ State.run (stepCount s.len.toNat) s2 = .next t2 ∧
      t1.done = true ∧ t2.done = true ∧ t2.result0 = t1.result0 ∧ t1.result1 = 0#32

/-! ## Whole-machine rules -/

/-- R28, R29, R60: RESULT0 and RESULT1 change only at the WB step of the engine and at reset. -/
def Obligations.ResultsChangeOnlyAtWriteBackOrReset : Prop :=
  ∀ s t : State, step s = .next t →
    (t.result0 = s.result0 ∧ t.result1 = s.result1) ∨
    (s.phase = 0b101#3 ∧ t.phase = 0b000#3 ∧ t.done = true) ∨
    (∃ rest, s.turns = .reset :: rest ∧ t.result0 = 0#32 ∧ t.result1 = 0#32)

/-- R207: once set, ERR and its code stay until a hash command is accepted or reset; only a later rejection changes the
code. -/
def Obligations.ErrorStaysUntilAcceptanceOrReset : Prop :=
  ∀ s t : State, s.err = true → step s = .next t →
    (t.err = true ∧ (t.errCode = s.errCode ∨ t.errCode = 1#4 ∨ (t.errCode = 2#4 ∧ s.phase ≠ 0b000#3))) ∨
    (s.phase = 0b000#3 ∧ t.phase = 0b001#3) ∨
    (∃ rest, s.turns = .reset :: rest)

/-- R35: DONE is set only by WB and cleared only by acceptance and reset; MODE is written only by acceptance and reset;
BUSY is set only by acceptance and cleared only by WB and reset. -/
def Obligations.FlagsChangeOnlyWhereListed : Prop :=
  ∀ s t : State, step s = .next t →
    (s.done = false → t.done = true → s.phase = 0b101#3 ∧ t.phase = 0b000#3) ∧
    (s.done = true → t.done = false → (s.phase = 0b000#3 ∧ t.phase = 0b001#3) ∨ ∃ rest, s.turns = .reset :: rest) ∧
    (t.latch.mode ≠ s.latch.mode → (s.phase = 0b000#3 ∧ t.phase = 0b001#3) ∨ ∃ rest, s.turns = .reset :: rest) ∧
    (s.busy = false → t.busy = true → t.phase = 0b001#3 ∧ t.done = false ∧ t.err = false ∧ t.errCode = 0#4) ∧
    (s.busy = true → t.busy = false → (s.phase = 0b101#3 ∧ t.done = true) ∨ ∃ rest, s.turns = .reset :: rest)

/-- R30, R56, R237: while a command runs, no load, store or command of the host touches its latches, accumulators, phase,
counts, results, DONE, the input memory or the read port: only the four operand registers, ERR and ERRCODE can change, and
the host gets its answers. -/
def Obligations.HostLeavesTheRunningCommandAlone : Prop :=
  ∀ (i : Instr) (s t : State), i.isEngineStep = false → s.phase ≠ 0b000#3 → exec i s = .next t →
    t = { s with srcAddr := t.srcAddr, len := t.len, seed1 := t.seed1, seed2 := t.seed2, err := t.err,
                 errCode := t.errCode, answers := t.answers }

/-- R24 to R27, R56, R230: each operand register changes only by a store to it or by reset. First over instructions; then over
steps, where the move is an aligned 32-bit store at the register's offset with the new value, or reset, so that no engine step,
command word, load or host write of memory changes it. -/
def Obligations.OperandRegistersChangeOnlyByTheirStore : Prop :=
  (∀ (i : Instr) (s t : State), exec i s = .next t →
    ((∀ v, i ≠ .swSrcAddr v) → t.srcAddr = s.srcAddr) ∧ ((∀ v, i ≠ .swLen v) → t.len = s.len) ∧
    ((∀ v, i ≠ .swSeed1 v) → t.seed1 = s.seed1) ∧ ((∀ v, i ≠ .swSeed2 v) → t.seed2 = s.seed2)) ∧
  (∀ s t : State, step s = .next t →
    (∃ rest, s.turns = .reset :: rest ∧ t.srcAddr = 0#32 ∧ t.len = 0#32 ∧ t.seed1 = 0#32 ∧ t.seed2 = 0#32) ∨
    ((t.srcAddr = s.srcAddr ∨ s.nextAccess = some ⟨.write, 4, 0x08#8, t.srcAddr⟩) ∧
     (t.len = s.len ∨ s.nextAccess = some ⟨.write, 4, 0x0C#8, t.len⟩) ∧
     (t.seed1 = s.seed1 ∨ s.nextAccess = some ⟨.write, 4, 0x10#8, t.seed1⟩) ∧
     (t.seed2 = s.seed2 ∨ s.nextAccess = some ⟨.write, 4, 0x14#8, t.seed2⟩)))

/-- R36, R51: no instruction writes a byte of host memory, only an engine step that reads moves the read port, and only a
load is answered. -/
def Obligations.NoInstructionWritesMemory : Prop :=
  ∀ (i : Instr) (s t : State), exec i s = .next t →
    (∀ a, t.mem.read a = s.mem.read a) ∧
    (i ≠ .stepBlock → i ≠ .stepTail → t.reads = s.reads) ∧
    (i.isLoad = false → t.answers = s.answers)

/-- The byte a host write leaves is read back, every other byte stays, and the canonical form of memory is kept
(R14, R36; the canonical form is the model's, log entry 2). -/
def Obligations.HostWriteThenReadMemory : Prop :=
  ∀ (m : Memory) (addr : Addr) (v : Byte), m.wf = true →
    (m.write addr.toNat v).wf = true ∧
    (∀ a, (m.write addr.toNat v).read a = if a = addr.toNat then v else m.read a) ∧
    ((m.write addr.toNat v).write addr.toNat (m.read addr.toNat) = m)

/-- R230, R231, R37: reset at any time, in any phase, leaves every visible register at its reset value and the engine idle;
host memory stays, an abandoned command writes no results, and the engine's later moves read nothing. The values of the
hidden registers are not stated: R37 leaves them open. That host memory, the moves to come, the answers and the read trace
survive reset is the model's choice (DEDUCED and DESIGN CHOICE, log entry 19). -/
def Obligations.ResetClearsEveryVisibleRegister : Prop :=
  ∀ (s : State) (rest : List Turn), s.turns = .reset :: rest →
    ∃ t, step s = .next t ∧ t.turns = rest ∧ t.phase = 0b000#3 ∧
      t.srcAddr = 0#32 ∧ t.len = 0#32 ∧ t.seed1 = 0#32 ∧ t.seed2 = 0#32 ∧ t.result0 = 0#32 ∧ t.result1 = 0#32 ∧
      t.done = false ∧ t.err = false ∧ t.errCode = 0#4 ∧ t.latch.mode = .single ∧ t.statusWord = 0x00000000#32 ∧
      t.mem = s.mem ∧ t.answers = s.answers ∧ t.reads = s.reads ∧
      engineMove t = .next t

/-- R37: the state after reset, every register the rule gives a value for. -/
def Obligations.ResetStateIsAsTheTableSays : Prop :=
  State.reset.phase = 0b000#3 ∧ State.reset.statusWord = 0x00000000#32 ∧ State.reset.srcAddr = 0#32 ∧
  State.reset.len = 0#32 ∧ State.reset.seed1 = 0#32 ∧ State.reset.seed2 = 0#32 ∧ State.reset.result0 = 0#32 ∧
  State.reset.result1 = 0#32 ∧ State.reset.latch.mode = .single

/-- The machine's invariant holds at reset: the phase is legal, the run invariants of R33 hold, the flags agree, a
running single command has no second seed, and memory is in canonical form. Of the hidden registers at reset it says nothing.
How R33 and the flags are read is log entry 9 (DEDUCED), the canonical form log entry 2 (DESIGN CHOICE). -/
def Obligations.ResetMeetsTheInvariant : Prop := State.reset.Inv

/-- R33, R203, R30: every step keeps the machine's invariant: K + REM = LLEN without wrapping from INIT to WB, K a multiple of
12 in BLOCK and TAIL, the bounds on REM, the error code and flag agreeing, DONE never set while BUSY, LSEED2 = 0 while
a single command runs, a legal phase, and memory in canonical form. How R33 and the flags are read is log entry 9 (DEDUCED), the
canonical form log entry 2 (DESIGN CHOICE). -/
def Obligations.StepKeepsTheInvariant : Prop :=
  ∀ s t : State, s.Inv → step s = .next t → t.Inv

/-- R200: the datapath raises no exception: each of the five engine steps answers a next state from every state, and no step
from a state that meets the invariant faults. -/
def Obligations.DatapathNeverFaults : Prop :=
  (∀ (i : Instr) (s : State), i ∈ [Instr.stepInit, .stepBlock, .stepTail, .stepFinal, .stepWb] →
    ∃ t, exec i s = .next t) ∧
  (∀ (s : State) (r : Fault), s.Inv → step s ≠ .fault r)

/-- R212: the engines of a platform share nothing but the host memory: a byte the host writes is written for every engine, and
any other move leaves every engine but the one it is made on as it is. The platform's form is the model's (log entry 11). -/
def Obligations.EnginesShareOnlyHostMemory : Prop :=
  ∀ (p q : Platform) (m : PlatformMove) (j : Nat) (e : State), Platform.step m p = .next q → p[j]? = some e →
    ∃ f, q[j]? = some f ∧
      (∀ addr v, m = .memWrite addr v → f = e.hostStore addr v ∧ f.mem = e.mem.write addr.toNat v) ∧
      ((∀ addr v, m ≠ .memWrite addr v) → p.mover m ≠ some j → f = e)

/-- R82: one pass of POLL's loop reads STATUS and leaves the loop exactly where DONE = 1; the block is changed only by its
answer to the load. -/
def Obligations.PollLeavesExactlyWhenDone : Prop :=
  ∀ (y : System) (x : Nat),
    y.host.ops[y.host.line]? = (poll y.host.line x)[0]? → y.host.ops[y.host.line + 1]? = (poll y.host.line x)[1]? →
    ∃ y1 y2, y.hostMove = .next y1 ∧ y1.hostMove = .next y2 ∧
      y2.host.line = (if y.block.done then y.host.line + 2 else y.host.line) ∧
      y2.host.get x = y.block.statusWord ∧
      y2.block = { y.block with answers := y.block.answers ++ [y.block.statusWord] }

/-- R212, R21: each engine has its own window: a bus access at an engine's P_BASE + OFF is that engine's window access at OFF,
where it reaches no other engine's window, and no other engine moves. The platform's form is the model's (log entries 8 and
11). -/
def Obligations.BusAccessMovesTheEngineOfItsWindow : Prop :=
  ∀ (p : Platform) (k : Nat) (e : State) (acc : Access) (b : BusAccess), p[k]? = some e →
    b = ⟨acc.dir, acc.size, e.windowBase + acc.off.setWidth 32, acc.data⟩ →
    (∀ j e', p[j]? = some e' → j ≠ k → e'.windowReached b = false) →
    (acc.size = 4 → acc.off.toNat % 4 = 0 →
      ∃ i t, decode (.mmio acc) = .ok i ∧ exec i e = .next t ∧ Platform.step (.bus b) p = .next (p.set k t)) ∧
    ((acc.size ≠ 4 ∨ acc.off.toNat % 4 ≠ 0) → Platform.step (.bus b) p = .refused .windowAccess)

/-- R212, R36: the engines of a platform see one host memory: where all hold the same memory they do after every move, and no move
adds an engine or gives one another's window. That each holds a copy is the model's form (log entry 11). -/
def Obligations.EnginesSeeOneHostMemory : Prop :=
  ∀ (p q : Platform) (m : PlatformMove), Platform.step m p = .next q →
    (∀ e ∈ p, ∀ e' ∈ p, e.mem = e'.mem) →
    (∀ f ∈ q, ∀ f' ∈ q, f.mem = f'.mem) ∧ q.map State.engineNo = p.map State.engineNo
end

