-- ==== Sys2Proof/Laws/Decode.lean ====
section
/-! SUPPORT. What the decoder can answer, and that it reads back what the encoder writes. -/

namespace Sys2Proof

theorem decodeLoad_isLoad (off : BitVec 8) : (decodeLoad off).isLoad = true := by
  unfold decodeLoad
  repeat' split
  all_goals rfl

theorem decodeStore_isStore (off : BitVec 8) (v : Word) : (decodeStore off v).isStore = true := by
  unfold decodeStore
  repeat' split
  all_goals rfl

theorem decodeCommandWord_notEngineStep (w : Word) : (decodeCommandWord w).isEngineStep = false := by
  unfold decodeCommandWord
  split <;> rfl

/-- An engine step is what `decodePhase` answers, and the only thing. -/
theorem decodePhase_isEngineStep {code : BitVec 3} {i : Instr} (h : decodePhase code = .ok i) :
    i.isEngineStep = true := by
  unfold decodePhase at h
  repeat' split at h
  all_goals cases h <;> rfl

/-- The phase each engine step is decoded from. -/
theorem decodePhase_ok {code : BitVec 3} {i : Instr} (h : decodePhase code = .ok i) :
    (i = .stepInit ∧ code = Phase.init) ∨ (i = .stepBlock ∧ code = Phase.block) ∨ (i = .stepTail ∧ code = Phase.tail) ∨
    (i = .stepFinal ∧ code = Phase.final) ∨ (i = .stepWb ∧ code = Phase.wb) ∨
    (i = .phaseUnused code ∧ 5 < code.toNat) := by
  have all : ∀ c : BitVec 3,
      c = 0#3 ∨ c = 1#3 ∨ c = 2#3 ∨ c = 3#3 ∨ c = 4#3 ∨ c = 5#3 ∨ c = 6#3 ∨ c = 7#3 := by decide
  rcases all code with rfl | rfl | rfl | rfl | rfl | rfl | rfl | rfl <;> cases h <;> decide

/-- A window access decodes exactly where it is an aligned 32-bit access (R53). -/
theorem decodeAccess_ok {acc : Access} {i : Instr} (h : decodeAccess acc = .ok i) :
    acc.defined = true ∧
      ((acc.dir = .read ∧ i = decodeLoad acc.off) ∨ (acc.dir = .write ∧ i = decodeStore acc.off acc.data)) := by
  unfold decodeAccess at h
  split at h
  · rename_i hd
    refine ⟨hd, ?_⟩
    split at h <;> rename_i hdir <;> cases h <;> simp [hdir]
  · cases h

/-- A window access that is not an aligned 32-bit access is no instruction (R53). -/
theorem decodeAccess_error {acc : Access} (h : acc.defined = false) : decodeAccess acc = .error .windowAccess := by
  simp [decodeAccess, h]

theorem decodeAccess_defined {acc : Access} (h : acc.defined = true) : ∃ i, decodeAccess acc = .ok i := by
  unfold decodeAccess
  rw [if_pos h]
  cases acc.dir <;> exact ⟨_, rfl⟩

theorem decode_encodeLoad {off : BitVec 8} (h : off.toNat % 4 = 0) : decode (encodeLoad off) = .ok (decodeLoad off) := by
  simp [decode, encodeLoad, decodeAccess, Access.defined, h]

theorem decode_encodeStore {off : BitVec 8} (h : off.toNat % 4 = 0) (v : Word) :
    decode (encodeStore off v) = .ok (decodeStore off v) := by
  simp [decode, encodeStore, decodeAccess, Access.defined, h]

/-- The two groups of instructions an access decodes to. -/
theorem decodeAccess_isHost {acc : Access} {i : Instr} (h : decodeAccess acc = .ok i) :
    i.isLoad = true ∨ i.isStore = true := by
  rcases (decodeAccess_ok h).2 with ⟨-, rfl⟩ | ⟨-, rfl⟩
  · exact .inl (decodeLoad_isLoad _)
  · exact .inr (decodeStore_isStore _ _)

/-- A reserved offset is none of the eight registers' offsets, so its load decodes to LW.RESERVED. -/
theorem decodeLoad_reserved {off : BitVec 8} (h : 0x20 ≤ off.toNat) : decodeLoad off = .lwReserved off := by
  have ne : ∀ o : BitVec 8, o.toNat < 0x20 → off ≠ o := fun o ho e => by subst e; omega
  simp [decodeLoad, ne Off.ctrl (by decide), ne Off.status (by decide), ne Off.srcAddr (by decide), ne Off.len (by decide),
    ne Off.seed1 (by decide), ne Off.seed2 (by decide), ne Off.result0 (by decide), ne Off.result1 (by decide)]

theorem decodeStore_reserved {off : BitVec 8} (h : 0x20 ≤ off.toNat) (v : Word) :
    decodeStore off v = .swReserved off v := by
  have ne : ∀ o : BitVec 8, o.toNat < 0x20 → off ≠ o := fun o ho e => by subst e; omega
  simp [decodeStore, ne Off.ctrl (by decide), ne Off.status (by decide), ne Off.srcAddr (by decide),
    ne Off.len (by decide), ne Off.seed1 (by decide), ne Off.seed2 (by decide), ne Off.result0 (by decide),
    ne Off.result1 (by decide)]

end Sys2Proof
end

