-- ==== Sys2Proof/Laws/State.lean ====
section
/-! SUPPORT. One lemma per field per named update of the state, each by rfl, so that no later proof unfolds an update. -/

namespace Sys2Proof.Machine

variable (s : State)

/-! ### `State.setSrcAddr` -/

@[simp] theorem State.setSrcAddr_srcAddr (v : Word) : (s.setSrcAddr v).srcAddr = v := rfl
@[simp] theorem State.setSrcAddr_len (v : Word) : (s.setSrcAddr v).len = s.len := rfl
@[simp] theorem State.setSrcAddr_seed1 (v : Word) : (s.setSrcAddr v).seed1 = s.seed1 := rfl
@[simp] theorem State.setSrcAddr_seed2 (v : Word) : (s.setSrcAddr v).seed2 = s.seed2 := rfl
@[simp] theorem State.setSrcAddr_result0 (v : Word) : (s.setSrcAddr v).result0 = s.result0 := rfl
@[simp] theorem State.setSrcAddr_result1 (v : Word) : (s.setSrcAddr v).result1 = s.result1 := rfl
@[simp] theorem State.setSrcAddr_done (v : Word) : (s.setSrcAddr v).done = s.done := rfl
@[simp] theorem State.setSrcAddr_err (v : Word) : (s.setSrcAddr v).err = s.err := rfl
@[simp] theorem State.setSrcAddr_errCode (v : Word) : (s.setSrcAddr v).errCode = s.errCode := rfl
@[simp] theorem State.setSrcAddr_latch (v : Word) : (s.setSrcAddr v).latch = s.latch := rfl
@[simp] theorem State.setSrcAddr_accs (v : Word) : (s.setSrcAddr v).accs = s.accs := rfl
@[simp] theorem State.setSrcAddr_phase (v : Word) : (s.setSrcAddr v).phase = s.phase := rfl
@[simp] theorem State.setSrcAddr_k (v : Word) : (s.setSrcAddr v).k = s.k := rfl
@[simp] theorem State.setSrcAddr_rem (v : Word) : (s.setSrcAddr v).rem = s.rem := rfl
@[simp] theorem State.setSrcAddr_mem (v : Word) : (s.setSrcAddr v).mem = s.mem := rfl
@[simp] theorem State.setSrcAddr_turns (v : Word) : (s.setSrcAddr v).turns = s.turns := rfl
@[simp] theorem State.setSrcAddr_answers (v : Word) : (s.setSrcAddr v).answers = s.answers := rfl
@[simp] theorem State.setSrcAddr_reads (v : Word) : (s.setSrcAddr v).reads = s.reads := rfl
@[simp] theorem State.setSrcAddr_spoiled (v : Word) : (s.setSrcAddr v).spoiled = s.spoiled := rfl
@[simp] theorem State.setSrcAddr_draws (v : Word) : (s.setSrcAddr v).draws = s.draws := rfl
@[simp] theorem State.setSrcAddr_engineNo (v : Word) : (s.setSrcAddr v).engineNo = s.engineNo := rfl
@[simp] theorem State.setSrcAddr_windowBase (v : Word) : (s.setSrcAddr v).windowBase = s.windowBase := rfl

/-! ### `State.setLen` -/

@[simp] theorem State.setLen_srcAddr (v : Word) : (s.setLen v).srcAddr = s.srcAddr := rfl
@[simp] theorem State.setLen_len (v : Word) : (s.setLen v).len = v := rfl
@[simp] theorem State.setLen_seed1 (v : Word) : (s.setLen v).seed1 = s.seed1 := rfl
@[simp] theorem State.setLen_seed2 (v : Word) : (s.setLen v).seed2 = s.seed2 := rfl
@[simp] theorem State.setLen_result0 (v : Word) : (s.setLen v).result0 = s.result0 := rfl
@[simp] theorem State.setLen_result1 (v : Word) : (s.setLen v).result1 = s.result1 := rfl
@[simp] theorem State.setLen_done (v : Word) : (s.setLen v).done = s.done := rfl
@[simp] theorem State.setLen_err (v : Word) : (s.setLen v).err = s.err := rfl
@[simp] theorem State.setLen_errCode (v : Word) : (s.setLen v).errCode = s.errCode := rfl
@[simp] theorem State.setLen_latch (v : Word) : (s.setLen v).latch = s.latch := rfl
@[simp] theorem State.setLen_accs (v : Word) : (s.setLen v).accs = s.accs := rfl
@[simp] theorem State.setLen_phase (v : Word) : (s.setLen v).phase = s.phase := rfl
@[simp] theorem State.setLen_k (v : Word) : (s.setLen v).k = s.k := rfl
@[simp] theorem State.setLen_rem (v : Word) : (s.setLen v).rem = s.rem := rfl
@[simp] theorem State.setLen_mem (v : Word) : (s.setLen v).mem = s.mem := rfl
@[simp] theorem State.setLen_turns (v : Word) : (s.setLen v).turns = s.turns := rfl
@[simp] theorem State.setLen_answers (v : Word) : (s.setLen v).answers = s.answers := rfl
@[simp] theorem State.setLen_reads (v : Word) : (s.setLen v).reads = s.reads := rfl
@[simp] theorem State.setLen_spoiled (v : Word) : (s.setLen v).spoiled = s.spoiled := rfl
@[simp] theorem State.setLen_draws (v : Word) : (s.setLen v).draws = s.draws := rfl
@[simp] theorem State.setLen_engineNo (v : Word) : (s.setLen v).engineNo = s.engineNo := rfl
@[simp] theorem State.setLen_windowBase (v : Word) : (s.setLen v).windowBase = s.windowBase := rfl

/-! ### `State.setSeed1` -/

@[simp] theorem State.setSeed1_srcAddr (v : Word) : (s.setSeed1 v).srcAddr = s.srcAddr := rfl
@[simp] theorem State.setSeed1_len (v : Word) : (s.setSeed1 v).len = s.len := rfl
@[simp] theorem State.setSeed1_seed1 (v : Word) : (s.setSeed1 v).seed1 = v := rfl
@[simp] theorem State.setSeed1_seed2 (v : Word) : (s.setSeed1 v).seed2 = s.seed2 := rfl
@[simp] theorem State.setSeed1_result0 (v : Word) : (s.setSeed1 v).result0 = s.result0 := rfl
@[simp] theorem State.setSeed1_result1 (v : Word) : (s.setSeed1 v).result1 = s.result1 := rfl
@[simp] theorem State.setSeed1_done (v : Word) : (s.setSeed1 v).done = s.done := rfl
@[simp] theorem State.setSeed1_err (v : Word) : (s.setSeed1 v).err = s.err := rfl
@[simp] theorem State.setSeed1_errCode (v : Word) : (s.setSeed1 v).errCode = s.errCode := rfl
@[simp] theorem State.setSeed1_latch (v : Word) : (s.setSeed1 v).latch = s.latch := rfl
@[simp] theorem State.setSeed1_accs (v : Word) : (s.setSeed1 v).accs = s.accs := rfl
@[simp] theorem State.setSeed1_phase (v : Word) : (s.setSeed1 v).phase = s.phase := rfl
@[simp] theorem State.setSeed1_k (v : Word) : (s.setSeed1 v).k = s.k := rfl
@[simp] theorem State.setSeed1_rem (v : Word) : (s.setSeed1 v).rem = s.rem := rfl
@[simp] theorem State.setSeed1_mem (v : Word) : (s.setSeed1 v).mem = s.mem := rfl
@[simp] theorem State.setSeed1_turns (v : Word) : (s.setSeed1 v).turns = s.turns := rfl
@[simp] theorem State.setSeed1_answers (v : Word) : (s.setSeed1 v).answers = s.answers := rfl
@[simp] theorem State.setSeed1_reads (v : Word) : (s.setSeed1 v).reads = s.reads := rfl
@[simp] theorem State.setSeed1_spoiled (v : Word) : (s.setSeed1 v).spoiled = s.spoiled := rfl
@[simp] theorem State.setSeed1_draws (v : Word) : (s.setSeed1 v).draws = s.draws := rfl
@[simp] theorem State.setSeed1_engineNo (v : Word) : (s.setSeed1 v).engineNo = s.engineNo := rfl
@[simp] theorem State.setSeed1_windowBase (v : Word) : (s.setSeed1 v).windowBase = s.windowBase := rfl

/-! ### `State.setSeed2` -/

@[simp] theorem State.setSeed2_srcAddr (v : Word) : (s.setSeed2 v).srcAddr = s.srcAddr := rfl
@[simp] theorem State.setSeed2_len (v : Word) : (s.setSeed2 v).len = s.len := rfl
@[simp] theorem State.setSeed2_seed1 (v : Word) : (s.setSeed2 v).seed1 = s.seed1 := rfl
@[simp] theorem State.setSeed2_seed2 (v : Word) : (s.setSeed2 v).seed2 = v := rfl
@[simp] theorem State.setSeed2_result0 (v : Word) : (s.setSeed2 v).result0 = s.result0 := rfl
@[simp] theorem State.setSeed2_result1 (v : Word) : (s.setSeed2 v).result1 = s.result1 := rfl
@[simp] theorem State.setSeed2_done (v : Word) : (s.setSeed2 v).done = s.done := rfl
@[simp] theorem State.setSeed2_err (v : Word) : (s.setSeed2 v).err = s.err := rfl
@[simp] theorem State.setSeed2_errCode (v : Word) : (s.setSeed2 v).errCode = s.errCode := rfl
@[simp] theorem State.setSeed2_latch (v : Word) : (s.setSeed2 v).latch = s.latch := rfl
@[simp] theorem State.setSeed2_accs (v : Word) : (s.setSeed2 v).accs = s.accs := rfl
@[simp] theorem State.setSeed2_phase (v : Word) : (s.setSeed2 v).phase = s.phase := rfl
@[simp] theorem State.setSeed2_k (v : Word) : (s.setSeed2 v).k = s.k := rfl
@[simp] theorem State.setSeed2_rem (v : Word) : (s.setSeed2 v).rem = s.rem := rfl
@[simp] theorem State.setSeed2_mem (v : Word) : (s.setSeed2 v).mem = s.mem := rfl
@[simp] theorem State.setSeed2_turns (v : Word) : (s.setSeed2 v).turns = s.turns := rfl
@[simp] theorem State.setSeed2_answers (v : Word) : (s.setSeed2 v).answers = s.answers := rfl
@[simp] theorem State.setSeed2_reads (v : Word) : (s.setSeed2 v).reads = s.reads := rfl
@[simp] theorem State.setSeed2_spoiled (v : Word) : (s.setSeed2 v).spoiled = s.spoiled := rfl
@[simp] theorem State.setSeed2_draws (v : Word) : (s.setSeed2 v).draws = s.draws := rfl
@[simp] theorem State.setSeed2_engineNo (v : Word) : (s.setSeed2 v).engineNo = s.engineNo := rfl
@[simp] theorem State.setSeed2_windowBase (v : Word) : (s.setSeed2 v).windowBase = s.windowBase := rfl

/-! ### `State.answer` -/

@[simp] theorem State.answer_srcAddr (v : Word) : (s.answer v).srcAddr = s.srcAddr := rfl
@[simp] theorem State.answer_len (v : Word) : (s.answer v).len = s.len := rfl
@[simp] theorem State.answer_seed1 (v : Word) : (s.answer v).seed1 = s.seed1 := rfl
@[simp] theorem State.answer_seed2 (v : Word) : (s.answer v).seed2 = s.seed2 := rfl
@[simp] theorem State.answer_result0 (v : Word) : (s.answer v).result0 = s.result0 := rfl
@[simp] theorem State.answer_result1 (v : Word) : (s.answer v).result1 = s.result1 := rfl
@[simp] theorem State.answer_done (v : Word) : (s.answer v).done = s.done := rfl
@[simp] theorem State.answer_err (v : Word) : (s.answer v).err = s.err := rfl
@[simp] theorem State.answer_errCode (v : Word) : (s.answer v).errCode = s.errCode := rfl
@[simp] theorem State.answer_latch (v : Word) : (s.answer v).latch = s.latch := rfl
@[simp] theorem State.answer_accs (v : Word) : (s.answer v).accs = s.accs := rfl
@[simp] theorem State.answer_phase (v : Word) : (s.answer v).phase = s.phase := rfl
@[simp] theorem State.answer_k (v : Word) : (s.answer v).k = s.k := rfl
@[simp] theorem State.answer_rem (v : Word) : (s.answer v).rem = s.rem := rfl
@[simp] theorem State.answer_mem (v : Word) : (s.answer v).mem = s.mem := rfl
@[simp] theorem State.answer_turns (v : Word) : (s.answer v).turns = s.turns := rfl
@[simp] theorem State.answer_answers (v : Word) : (s.answer v).answers = s.answers ++ [v] := rfl
@[simp] theorem State.answer_reads (v : Word) : (s.answer v).reads = s.reads := rfl
@[simp] theorem State.answer_spoiled (v : Word) : (s.answer v).spoiled = s.spoiled := rfl
@[simp] theorem State.answer_draws (v : Word) : (s.answer v).draws = s.draws := rfl
@[simp] theorem State.answer_engineNo (v : Word) : (s.answer v).engineNo = s.engineNo := rfl
@[simp] theorem State.answer_windowBase (v : Word) : (s.answer v).windowBase = s.windowBase := rfl

/-! ### `State.cmdError` -/

@[simp] theorem State.cmdError_srcAddr (e : BitVec 4) : (s.cmdError e).srcAddr = s.srcAddr := rfl
@[simp] theorem State.cmdError_len (e : BitVec 4) : (s.cmdError e).len = s.len := rfl
@[simp] theorem State.cmdError_seed1 (e : BitVec 4) : (s.cmdError e).seed1 = s.seed1 := rfl
@[simp] theorem State.cmdError_seed2 (e : BitVec 4) : (s.cmdError e).seed2 = s.seed2 := rfl
@[simp] theorem State.cmdError_result0 (e : BitVec 4) : (s.cmdError e).result0 = s.result0 := rfl
@[simp] theorem State.cmdError_result1 (e : BitVec 4) : (s.cmdError e).result1 = s.result1 := rfl
@[simp] theorem State.cmdError_done (e : BitVec 4) : (s.cmdError e).done = s.done := rfl
@[simp] theorem State.cmdError_err (e : BitVec 4) : (s.cmdError e).err = true := rfl
@[simp] theorem State.cmdError_errCode (e : BitVec 4) : (s.cmdError e).errCode = e := rfl
@[simp] theorem State.cmdError_latch (e : BitVec 4) : (s.cmdError e).latch = s.latch := rfl
@[simp] theorem State.cmdError_accs (e : BitVec 4) : (s.cmdError e).accs = s.accs := rfl
@[simp] theorem State.cmdError_phase (e : BitVec 4) : (s.cmdError e).phase = s.phase := rfl
@[simp] theorem State.cmdError_k (e : BitVec 4) : (s.cmdError e).k = s.k := rfl
@[simp] theorem State.cmdError_rem (e : BitVec 4) : (s.cmdError e).rem = s.rem := rfl
@[simp] theorem State.cmdError_mem (e : BitVec 4) : (s.cmdError e).mem = s.mem := rfl
@[simp] theorem State.cmdError_turns (e : BitVec 4) : (s.cmdError e).turns = s.turns := rfl
@[simp] theorem State.cmdError_answers (e : BitVec 4) : (s.cmdError e).answers = s.answers := rfl
@[simp] theorem State.cmdError_reads (e : BitVec 4) : (s.cmdError e).reads = s.reads := rfl
@[simp] theorem State.cmdError_spoiled (e : BitVec 4) : (s.cmdError e).spoiled = s.spoiled := rfl
@[simp] theorem State.cmdError_draws (e : BitVec 4) : (s.cmdError e).draws = s.draws := rfl
@[simp] theorem State.cmdError_engineNo (e : BitVec 4) : (s.cmdError e).engineNo = s.engineNo := rfl
@[simp] theorem State.cmdError_windowBase (e : BitVec 4) : (s.cmdError e).windowBase = s.windowBase := rfl

/-! ### `State.accept` -/

@[simp] theorem State.accept_srcAddr (m : Mode) : (s.accept m).srcAddr = s.srcAddr := rfl
@[simp] theorem State.accept_len (m : Mode) : (s.accept m).len = s.len := rfl
@[simp] theorem State.accept_seed1 (m : Mode) : (s.accept m).seed1 = s.seed1 := rfl
@[simp] theorem State.accept_seed2 (m : Mode) : (s.accept m).seed2 = s.seed2 := rfl
@[simp] theorem State.accept_result0 (m : Mode) : (s.accept m).result0 = s.result0 := rfl
@[simp] theorem State.accept_result1 (m : Mode) : (s.accept m).result1 = s.result1 := rfl
@[simp] theorem State.accept_done (m : Mode) : (s.accept m).done = false := rfl
@[simp] theorem State.accept_err (m : Mode) : (s.accept m).err = false := rfl
@[simp] theorem State.accept_errCode (m : Mode) : (s.accept m).errCode = ErrCode.none := rfl
@[simp] theorem State.accept_latch (m : Mode) : (s.accept m).latch = s.operands m := rfl
@[simp] theorem State.accept_accs (m : Mode) : (s.accept m).accs = s.accs := rfl
@[simp] theorem State.accept_phase (m : Mode) : (s.accept m).phase = Phase.init := rfl
@[simp] theorem State.accept_k (m : Mode) : (s.accept m).k = s.k := rfl
@[simp] theorem State.accept_rem (m : Mode) : (s.accept m).rem = s.rem := rfl
@[simp] theorem State.accept_mem (m : Mode) : (s.accept m).mem = s.mem := rfl
@[simp] theorem State.accept_turns (m : Mode) : (s.accept m).turns = s.turns := rfl
@[simp] theorem State.accept_answers (m : Mode) : (s.accept m).answers = s.answers := rfl
@[simp] theorem State.accept_reads (m : Mode) : (s.accept m).reads = s.reads := rfl
@[simp] theorem State.accept_spoiled (m : Mode) : (s.accept m).spoiled = false := rfl
@[simp] theorem State.accept_draws (m : Mode) : (s.accept m).draws = s.draws := rfl
@[simp] theorem State.accept_engineNo (m : Mode) : (s.accept m).engineNo = s.engineNo := rfl
@[simp] theorem State.accept_windowBase (m : Mode) : (s.accept m).windowBase = s.windowBase := rfl

/-! ### `State.initialise` -/

@[simp] theorem State.initialise_srcAddr : (s.initialise).srcAddr = s.srcAddr := rfl
@[simp] theorem State.initialise_len : (s.initialise).len = s.len := rfl
@[simp] theorem State.initialise_seed1 : (s.initialise).seed1 = s.seed1 := rfl
@[simp] theorem State.initialise_seed2 : (s.initialise).seed2 = s.seed2 := rfl
@[simp] theorem State.initialise_result0 : (s.initialise).result0 = s.result0 := rfl
@[simp] theorem State.initialise_result1 : (s.initialise).result1 = s.result1 := rfl
@[simp] theorem State.initialise_done : (s.initialise).done = s.done := rfl
@[simp] theorem State.initialise_err : (s.initialise).err = s.err := rfl
@[simp] theorem State.initialise_errCode : (s.initialise).errCode = s.errCode := rfl
@[simp] theorem State.initialise_latch : (s.initialise).latch = s.latch := rfl
@[simp] theorem State.initialise_accs : (s.initialise).accs = initAccs s.latch.len s.latch.seed1 s.latch.seed2 := rfl
@[simp] theorem State.initialise_phase : (s.initialise).phase = initNext s.latch.len := rfl
@[simp] theorem State.initialise_k : (s.initialise).k = 0#32 := rfl
@[simp] theorem State.initialise_rem : (s.initialise).rem = s.latch.len := rfl
@[simp] theorem State.initialise_mem : (s.initialise).mem = s.mem := rfl
@[simp] theorem State.initialise_turns : (s.initialise).turns = s.turns := rfl
@[simp] theorem State.initialise_answers : (s.initialise).answers = s.answers := rfl
@[simp] theorem State.initialise_reads : (s.initialise).reads = s.reads := rfl
@[simp] theorem State.initialise_spoiled : (s.initialise).spoiled = s.spoiled := rfl
@[simp] theorem State.initialise_draws : (s.initialise).draws = s.draws := rfl
@[simp] theorem State.initialise_engineNo : (s.initialise).engineNo = s.engineNo := rfl
@[simp] theorem State.initialise_windowBase : (s.initialise).windowBase = s.windowBase := rfl

/-! ### `State.absorbBlock` -/

@[simp] theorem State.absorbBlock_srcAddr : (s.absorbBlock).srcAddr = s.srcAddr := rfl
@[simp] theorem State.absorbBlock_len : (s.absorbBlock).len = s.len := rfl
@[simp] theorem State.absorbBlock_seed1 : (s.absorbBlock).seed1 = s.seed1 := rfl
@[simp] theorem State.absorbBlock_seed2 : (s.absorbBlock).seed2 = s.seed2 := rfl
@[simp] theorem State.absorbBlock_result0 : (s.absorbBlock).result0 = s.result0 := rfl
@[simp] theorem State.absorbBlock_result1 : (s.absorbBlock).result1 = s.result1 := rfl
@[simp] theorem State.absorbBlock_done : (s.absorbBlock).done = s.done := rfl
@[simp] theorem State.absorbBlock_err : (s.absorbBlock).err = s.err := rfl
@[simp] theorem State.absorbBlock_errCode : (s.absorbBlock).errCode = s.errCode := rfl
@[simp] theorem State.absorbBlock_latch : (s.absorbBlock).latch = s.latch := rfl
@[simp] theorem State.absorbBlock_accs : (s.absorbBlock).accs = mix (s.accs.absorb (s.portBytes s.blockAddrs)) := rfl
@[simp] theorem State.absorbBlock_phase : (s.absorbBlock).phase = blockNext (s.rem - 12#32) := rfl
@[simp] theorem State.absorbBlock_k : (s.absorbBlock).k = s.k + 12#32 := rfl
@[simp] theorem State.absorbBlock_rem : (s.absorbBlock).rem = s.rem - 12#32 := rfl
@[simp] theorem State.absorbBlock_mem : (s.absorbBlock).mem = s.mem := rfl
@[simp] theorem State.absorbBlock_turns : (s.absorbBlock).turns = s.turns := rfl
@[simp] theorem State.absorbBlock_answers : (s.absorbBlock).answers = s.answers := rfl
@[simp] theorem State.absorbBlock_reads : (s.absorbBlock).reads = s.reads := rfl
@[simp] theorem State.absorbBlock_spoiled : (s.absorbBlock).spoiled = s.spoiled := rfl
@[simp] theorem State.absorbBlock_draws : (s.absorbBlock).draws = s.draws := rfl
@[simp] theorem State.absorbBlock_engineNo : (s.absorbBlock).engineNo = s.engineNo := rfl
@[simp] theorem State.absorbBlock_windowBase : (s.absorbBlock).windowBase = s.windowBase := rfl

/-! ### `State.absorbTail` -/

@[simp] theorem State.absorbTail_srcAddr : (s.absorbTail).srcAddr = s.srcAddr := rfl
@[simp] theorem State.absorbTail_len : (s.absorbTail).len = s.len := rfl
@[simp] theorem State.absorbTail_seed1 : (s.absorbTail).seed1 = s.seed1 := rfl
@[simp] theorem State.absorbTail_seed2 : (s.absorbTail).seed2 = s.seed2 := rfl
@[simp] theorem State.absorbTail_result0 : (s.absorbTail).result0 = s.result0 := rfl
@[simp] theorem State.absorbTail_result1 : (s.absorbTail).result1 = s.result1 := rfl
@[simp] theorem State.absorbTail_done : (s.absorbTail).done = s.done := rfl
@[simp] theorem State.absorbTail_err : (s.absorbTail).err = s.err := rfl
@[simp] theorem State.absorbTail_errCode : (s.absorbTail).errCode = s.errCode := rfl
@[simp] theorem State.absorbTail_latch : (s.absorbTail).latch = s.latch := rfl
@[simp] theorem State.absorbTail_accs : (s.absorbTail).accs = s.accs.absorb (s.portBytes s.tailAddrs) := rfl
@[simp] theorem State.absorbTail_phase : (s.absorbTail).phase = Phase.final := rfl
@[simp] theorem State.absorbTail_k : (s.absorbTail).k = s.k + s.rem := rfl
@[simp] theorem State.absorbTail_rem : (s.absorbTail).rem = 0#32 := rfl
@[simp] theorem State.absorbTail_mem : (s.absorbTail).mem = s.mem := rfl
@[simp] theorem State.absorbTail_turns : (s.absorbTail).turns = s.turns := rfl
@[simp] theorem State.absorbTail_answers : (s.absorbTail).answers = s.answers := rfl
@[simp] theorem State.absorbTail_reads : (s.absorbTail).reads = s.reads := rfl
@[simp] theorem State.absorbTail_spoiled : (s.absorbTail).spoiled = s.spoiled := rfl
@[simp] theorem State.absorbTail_draws : (s.absorbTail).draws = s.draws := rfl
@[simp] theorem State.absorbTail_engineNo : (s.absorbTail).engineNo = s.engineNo := rfl
@[simp] theorem State.absorbTail_windowBase : (s.absorbTail).windowBase = s.windowBase := rfl

/-! ### `State.drivePort` -/

@[simp] theorem State.drivePort_srcAddr (as : List Addr) : (s.drivePort as).srcAddr = s.srcAddr := rfl
@[simp] theorem State.drivePort_len (as : List Addr) : (s.drivePort as).len = s.len := rfl
@[simp] theorem State.drivePort_seed1 (as : List Addr) : (s.drivePort as).seed1 = s.seed1 := rfl
@[simp] theorem State.drivePort_seed2 (as : List Addr) : (s.drivePort as).seed2 = s.seed2 := rfl
@[simp] theorem State.drivePort_result0 (as : List Addr) : (s.drivePort as).result0 = s.result0 := rfl
@[simp] theorem State.drivePort_result1 (as : List Addr) : (s.drivePort as).result1 = s.result1 := rfl
@[simp] theorem State.drivePort_done (as : List Addr) : (s.drivePort as).done = s.done := rfl
@[simp] theorem State.drivePort_err (as : List Addr) : (s.drivePort as).err = s.err := rfl
@[simp] theorem State.drivePort_errCode (as : List Addr) : (s.drivePort as).errCode = s.errCode := rfl
@[simp] theorem State.drivePort_latch (as : List Addr) : (s.drivePort as).latch = s.latch := rfl
@[simp] theorem State.drivePort_accs (as : List Addr) : (s.drivePort as).accs = s.accs := rfl
@[simp] theorem State.drivePort_phase (as : List Addr) : (s.drivePort as).phase = s.phase := rfl
@[simp] theorem State.drivePort_k (as : List Addr) : (s.drivePort as).k = s.k := rfl
@[simp] theorem State.drivePort_rem (as : List Addr) : (s.drivePort as).rem = s.rem := rfl
@[simp] theorem State.drivePort_mem (as : List Addr) : (s.drivePort as).mem = s.mem := rfl
@[simp] theorem State.drivePort_turns (as : List Addr) : (s.drivePort as).turns = s.turns := rfl
@[simp] theorem State.drivePort_answers (as : List Addr) : (s.drivePort as).answers = s.answers := rfl
@[simp] theorem State.drivePort_reads (as : List Addr) : (s.drivePort as).reads = s.reads ++ as := rfl
@[simp] theorem State.drivePort_spoiled (as : List Addr) : (s.drivePort as).spoiled = s.spoiled := rfl
@[simp] theorem State.drivePort_draws (as : List Addr) : (s.drivePort as).draws = s.draws := rfl
@[simp] theorem State.drivePort_engineNo (as : List Addr) : (s.drivePort as).engineNo = s.engineNo := rfl
@[simp] theorem State.drivePort_windowBase (as : List Addr) : (s.drivePort as).windowBase = s.windowBase := rfl

/-! ### `State.avalanche` -/

@[simp] theorem State.avalanche_srcAddr : (s.avalanche).srcAddr = s.srcAddr := rfl
@[simp] theorem State.avalanche_len : (s.avalanche).len = s.len := rfl
@[simp] theorem State.avalanche_seed1 : (s.avalanche).seed1 = s.seed1 := rfl
@[simp] theorem State.avalanche_seed2 : (s.avalanche).seed2 = s.seed2 := rfl
@[simp] theorem State.avalanche_result0 : (s.avalanche).result0 = s.result0 := rfl
@[simp] theorem State.avalanche_result1 : (s.avalanche).result1 = s.result1 := rfl
@[simp] theorem State.avalanche_done : (s.avalanche).done = s.done := rfl
@[simp] theorem State.avalanche_err : (s.avalanche).err = s.err := rfl
@[simp] theorem State.avalanche_errCode : (s.avalanche).errCode = s.errCode := rfl
@[simp] theorem State.avalanche_latch : (s.avalanche).latch = s.latch := rfl
@[simp] theorem State.avalanche_accs : (s.avalanche).accs = finalMix s.accs := rfl
@[simp] theorem State.avalanche_phase : (s.avalanche).phase = Phase.wb := rfl
@[simp] theorem State.avalanche_k : (s.avalanche).k = s.k := rfl
@[simp] theorem State.avalanche_rem : (s.avalanche).rem = s.rem := rfl
@[simp] theorem State.avalanche_mem : (s.avalanche).mem = s.mem := rfl
@[simp] theorem State.avalanche_turns : (s.avalanche).turns = s.turns := rfl
@[simp] theorem State.avalanche_answers : (s.avalanche).answers = s.answers := rfl
@[simp] theorem State.avalanche_reads : (s.avalanche).reads = s.reads := rfl
@[simp] theorem State.avalanche_spoiled : (s.avalanche).spoiled = s.spoiled := rfl
@[simp] theorem State.avalanche_draws : (s.avalanche).draws = s.draws := rfl
@[simp] theorem State.avalanche_engineNo : (s.avalanche).engineNo = s.engineNo := rfl
@[simp] theorem State.avalanche_windowBase : (s.avalanche).windowBase = s.windowBase := rfl

/-! ### `State.writeBack` -/

@[simp] theorem State.writeBack_srcAddr : (s.writeBack).srcAddr = s.srcAddr := rfl
@[simp] theorem State.writeBack_len : (s.writeBack).len = s.len := rfl
@[simp] theorem State.writeBack_seed1 : (s.writeBack).seed1 = s.seed1 := rfl
@[simp] theorem State.writeBack_seed2 : (s.writeBack).seed2 = s.seed2 := rfl
@[simp] theorem State.writeBack_result0 : (s.writeBack).result0 = s.results.1 := rfl
@[simp] theorem State.writeBack_result1 : (s.writeBack).result1 = s.results.2 := rfl
@[simp] theorem State.writeBack_done : (s.writeBack).done = true := rfl
@[simp] theorem State.writeBack_err : (s.writeBack).err = s.err := rfl
@[simp] theorem State.writeBack_errCode : (s.writeBack).errCode = s.errCode := rfl
@[simp] theorem State.writeBack_latch : (s.writeBack).latch = s.latch := rfl
@[simp] theorem State.writeBack_accs : (s.writeBack).accs = s.accs := rfl
@[simp] theorem State.writeBack_phase : (s.writeBack).phase = Phase.idle := rfl
@[simp] theorem State.writeBack_k : (s.writeBack).k = s.k := rfl
@[simp] theorem State.writeBack_rem : (s.writeBack).rem = s.rem := rfl
@[simp] theorem State.writeBack_mem : (s.writeBack).mem = s.mem := rfl
@[simp] theorem State.writeBack_turns : (s.writeBack).turns = s.turns := rfl
@[simp] theorem State.writeBack_answers : (s.writeBack).answers = s.answers := rfl
@[simp] theorem State.writeBack_reads : (s.writeBack).reads = s.reads := rfl
@[simp] theorem State.writeBack_spoiled : (s.writeBack).spoiled = s.spoiled := rfl
@[simp] theorem State.writeBack_draws : (s.writeBack).draws = if s.spoiled then s.draws + 2 else s.draws := rfl
@[simp] theorem State.writeBack_engineNo : (s.writeBack).engineNo = s.engineNo := rfl
@[simp] theorem State.writeBack_windowBase : (s.writeBack).windowBase = s.windowBase := rfl

/-! ### `State.hostStore` -/

@[simp] theorem State.hostStore_srcAddr (addr : Addr) (v : Byte) : (s.hostStore addr v).srcAddr = s.srcAddr := rfl
@[simp] theorem State.hostStore_len (addr : Addr) (v : Byte) : (s.hostStore addr v).len = s.len := rfl
@[simp] theorem State.hostStore_seed1 (addr : Addr) (v : Byte) : (s.hostStore addr v).seed1 = s.seed1 := rfl
@[simp] theorem State.hostStore_seed2 (addr : Addr) (v : Byte) : (s.hostStore addr v).seed2 = s.seed2 := rfl
@[simp] theorem State.hostStore_result0 (addr : Addr) (v : Byte) : (s.hostStore addr v).result0 = s.result0 := rfl
@[simp] theorem State.hostStore_result1 (addr : Addr) (v : Byte) : (s.hostStore addr v).result1 = s.result1 := rfl
@[simp] theorem State.hostStore_done (addr : Addr) (v : Byte) : (s.hostStore addr v).done = s.done := rfl
@[simp] theorem State.hostStore_err (addr : Addr) (v : Byte) : (s.hostStore addr v).err = s.err := rfl
@[simp] theorem State.hostStore_errCode (addr : Addr) (v : Byte) : (s.hostStore addr v).errCode = s.errCode := rfl
@[simp] theorem State.hostStore_latch (addr : Addr) (v : Byte) : (s.hostStore addr v).latch = s.latch := rfl
@[simp] theorem State.hostStore_accs (addr : Addr) (v : Byte) : (s.hostStore addr v).accs = s.accs := rfl
@[simp] theorem State.hostStore_phase (addr : Addr) (v : Byte) : (s.hostStore addr v).phase = s.phase := rfl
@[simp] theorem State.hostStore_k (addr : Addr) (v : Byte) : (s.hostStore addr v).k = s.k := rfl
@[simp] theorem State.hostStore_rem (addr : Addr) (v : Byte) : (s.hostStore addr v).rem = s.rem := rfl
@[simp] theorem State.hostStore_mem (addr : Addr) (v : Byte) : (s.hostStore addr v).mem = s.mem.write addr.toNat v := rfl
@[simp] theorem State.hostStore_turns (addr : Addr) (v : Byte) : (s.hostStore addr v).turns = s.turns := rfl
@[simp] theorem State.hostStore_answers (addr : Addr) (v : Byte) : (s.hostStore addr v).answers = s.answers := rfl
@[simp] theorem State.hostStore_reads (addr : Addr) (v : Byte) : (s.hostStore addr v).reads = s.reads := rfl
@[simp] theorem State.hostStore_spoiled (addr : Addr) (v : Byte) : (s.hostStore addr v).spoiled = (s.spoiled || (s.busy && inWindow s.latch.src s.latch.len addr)) := rfl
@[simp] theorem State.hostStore_draws (addr : Addr) (v : Byte) : (s.hostStore addr v).draws = s.draws := rfl
@[simp] theorem State.hostStore_engineNo (addr : Addr) (v : Byte) : (s.hostStore addr v).engineNo = s.engineNo := rfl
@[simp] theorem State.hostStore_windowBase (addr : Addr) (v : Byte) : (s.hostStore addr v).windowBase = s.windowBase := rfl

/-! ### `State.popTurn` -/

@[simp] theorem State.popTurn_srcAddr : (s.popTurn).srcAddr = s.srcAddr := rfl
@[simp] theorem State.popTurn_len : (s.popTurn).len = s.len := rfl
@[simp] theorem State.popTurn_seed1 : (s.popTurn).seed1 = s.seed1 := rfl
@[simp] theorem State.popTurn_seed2 : (s.popTurn).seed2 = s.seed2 := rfl
@[simp] theorem State.popTurn_result0 : (s.popTurn).result0 = s.result0 := rfl
@[simp] theorem State.popTurn_result1 : (s.popTurn).result1 = s.result1 := rfl
@[simp] theorem State.popTurn_done : (s.popTurn).done = s.done := rfl
@[simp] theorem State.popTurn_err : (s.popTurn).err = s.err := rfl
@[simp] theorem State.popTurn_errCode : (s.popTurn).errCode = s.errCode := rfl
@[simp] theorem State.popTurn_latch : (s.popTurn).latch = s.latch := rfl
@[simp] theorem State.popTurn_accs : (s.popTurn).accs = s.accs := rfl
@[simp] theorem State.popTurn_phase : (s.popTurn).phase = s.phase := rfl
@[simp] theorem State.popTurn_k : (s.popTurn).k = s.k := rfl
@[simp] theorem State.popTurn_rem : (s.popTurn).rem = s.rem := rfl
@[simp] theorem State.popTurn_mem : (s.popTurn).mem = s.mem := rfl
@[simp] theorem State.popTurn_turns : (s.popTurn).turns = s.turns.tail := rfl
@[simp] theorem State.popTurn_answers : (s.popTurn).answers = s.answers := rfl
@[simp] theorem State.popTurn_reads : (s.popTurn).reads = s.reads := rfl
@[simp] theorem State.popTurn_spoiled : (s.popTurn).spoiled = s.spoiled := rfl
@[simp] theorem State.popTurn_draws : (s.popTurn).draws = s.draws := rfl
@[simp] theorem State.popTurn_engineNo : (s.popTurn).engineNo = s.engineNo := rfl
@[simp] theorem State.popTurn_windowBase : (s.popTurn).windowBase = s.windowBase := rfl

/-! ### `State.assertReset` -/

@[simp] theorem State.assertReset_srcAddr : (s.assertReset).srcAddr = 0#32 := rfl
@[simp] theorem State.assertReset_len : (s.assertReset).len = 0#32 := rfl
@[simp] theorem State.assertReset_seed1 : (s.assertReset).seed1 = 0#32 := rfl
@[simp] theorem State.assertReset_seed2 : (s.assertReset).seed2 = 0#32 := rfl
@[simp] theorem State.assertReset_result0 : (s.assertReset).result0 = 0#32 := rfl
@[simp] theorem State.assertReset_result1 : (s.assertReset).result1 = 0#32 := rfl
@[simp] theorem State.assertReset_done : (s.assertReset).done = false := rfl
@[simp] theorem State.assertReset_err : (s.assertReset).err = false := rfl
@[simp] theorem State.assertReset_errCode : (s.assertReset).errCode = 0#4 := rfl
@[simp] theorem State.assertReset_latch : (s.assertReset).latch = State.reset.latch := rfl
@[simp] theorem State.assertReset_accs : (s.assertReset).accs = State.reset.accs := rfl
@[simp] theorem State.assertReset_phase : (s.assertReset).phase = Phase.idle := rfl
@[simp] theorem State.assertReset_k : (s.assertReset).k = 0#32 := rfl
@[simp] theorem State.assertReset_rem : (s.assertReset).rem = 0#32 := rfl
@[simp] theorem State.assertReset_mem : (s.assertReset).mem = s.mem := rfl
@[simp] theorem State.assertReset_turns : (s.assertReset).turns = s.turns := rfl
@[simp] theorem State.assertReset_answers : (s.assertReset).answers = s.answers := rfl
@[simp] theorem State.assertReset_reads : (s.assertReset).reads = s.reads := rfl
@[simp] theorem State.assertReset_spoiled : (s.assertReset).spoiled = false := rfl
@[simp] theorem State.assertReset_draws : (s.assertReset).draws = s.draws := rfl
@[simp] theorem State.assertReset_engineNo : (s.assertReset).engineNo = s.engineNo := rfl
@[simp] theorem State.assertReset_windowBase : (s.assertReset).windowBase = s.windowBase := rfl

end Sys2Proof.Machine
end

