-- ==== Sys2Proof/Laws/Ops.lean ====
section
/-! SUPPORT. One spec lemma per shared operation: everything it can do, for proofs to cite instead of unfolding it. -/

namespace Sys2Proof.Machine

open Host (Outcome)

@[simp] theorem Outcome.next_inj {s t : State} :
    (Host.Outcome.next s : Result) = .next t ↔ s = t := by
  constructor
  · intro h
    cases h
    rfl
  · intro h
    rw [h]

theorem busy_iff {s : State} : s.busy = true ↔ s.phase ≠ Phase.idle := by
  simp [State.busy]

theorem not_busy_iff {s : State} : s.busy = false ↔ s.phase = Phase.idle := by
  simp [State.busy]

/-- Issuing a hash always answers a next state: BUSY_CMD while a command runs, else acceptance (R105). -/
theorem issueHash_cases (m : Mode) (s : State) :
    (s.phase ≠ Phase.idle ∧ issueHash m s = .next (s.cmdError ErrCode.busyCmd)) ∨
    (s.phase = Phase.idle ∧ issueHash m s = .next (s.accept m)) := by
  unfold issueHash
  by_cases h : s.phase = Phase.idle
  · right
    simp [h, State.busy]
  · left
    simp [h, State.busy]

/-- A command write always answers a next state, one of four (R104). -/
theorem presentCommand_cases (w : Word) (s : State) :
    (presentCommand w s = .next s) ∨
    (presentCommand w s = .next (s.cmdError ErrCode.illegalCmd)) ∨
    (s.phase ≠ Phase.idle ∧ presentCommand w s = .next (s.cmdError ErrCode.busyCmd)) ∨
    (∃ m, s.phase = Phase.idle ∧ presentCommand w s = .next (s.accept m)) := by
  unfold presentCommand
  split
  · exact .inr (.inl rfl)
  · exact .inl rfl
  · rcases issueHash_cases .single s with h | h
    · exact .inr (.inr (.inl h))
    · exact .inr (.inr (.inr ⟨_, h⟩))
  · rcases issueHash_cases .dual s with h | h
    · exact .inr (.inr (.inl h))
    · exact .inr (.inr (.inr ⟨_, h⟩))

/-- Every outcome of `exec` that is a next state: what the twenty-eight meanings can do to a state. -/
theorem exec_cases {i : Instr} {s t : State} (h : exec i s = .next t) :
    t = s ∨
    (∃ v, t = s.answer v) ∨
    (∃ v, t = s.setSrcAddr v ∧ i = .swSrcAddr v) ∨ (∃ v, t = s.setLen v ∧ i = .swLen v) ∨
    (∃ v, t = s.setSeed1 v ∧ i = .swSeed1 v) ∨ (∃ v, t = s.setSeed2 v ∧ i = .swSeed2 v) ∨
    t = s.cmdError ErrCode.illegalCmd ∨
    (s.phase ≠ Phase.idle ∧ t = s.cmdError ErrCode.busyCmd) ∨
    (∃ m, s.phase = Phase.idle ∧ t = s.accept m) ∨
    (i = .stepInit ∧ t = s.initialise) ∨
    (i = .stepBlock ∧ t = s.absorbBlock.drivePort s.blockAddrs) ∨
    (i = .stepTail ∧ t = s.absorbTail.drivePort s.tailAddrs) ∨
    (i = .stepFinal ∧ t = s.avalanche) ∨
    (i = .stepWb ∧ t = s.writeBack) := by
  have issue : ∀ m, issueHash m s = .next t →
      (s.phase ≠ Phase.idle ∧ t = s.cmdError ErrCode.busyCmd) ∨ (∃ m, s.phase = Phase.idle ∧ t = s.accept m) := by
    intro m hm
    rcases issueHash_cases m s with ⟨hp, e⟩ | ⟨hp, e⟩ <;> rw [e, Outcome.next_inj] at hm
    · exact .inl ⟨hp, hm.symm⟩
    · exact .inr ⟨m, hp, hm.symm⟩
  cases i with
  | hashSingle =>
    rcases issue _ h with h | h <;> simp [h]
  | hashDual =>
    rcases issue _ h with h | h <;> simp [h]
  | swCtrl w =>
    have h : presentCommand w s = .next t := h
    rcases presentCommand_cases w s with e | e | ⟨hp, e⟩ | ⟨m, hp, e⟩ <;> rw [e, Outcome.next_inj] at h <;> subst h
    · exact .inl rfl
    · simp
    · simp [hp]
    · exact .inr (.inr (.inr (.inr (.inr (.inr (.inr (.inr (.inl ⟨m, hp, rfl⟩))))))))
  | phaseUnused code => exact absurd h (by simp [exec, execPhaseUnused])
  | nop => exact .inl (Outcome.next_inj.mp h).symm
  | illegal w => simp [(Outcome.next_inj.mp h).symm]
  | lwCtrl => exact .inr (.inl ⟨_, (Outcome.next_inj.mp h).symm⟩)
  | lwStatus => exact .inr (.inl ⟨_, (Outcome.next_inj.mp h).symm⟩)
  | lwSrcAddr => exact .inr (.inl ⟨_, (Outcome.next_inj.mp h).symm⟩)
  | lwLen => exact .inr (.inl ⟨_, (Outcome.next_inj.mp h).symm⟩)
  | lwSeed1 => exact .inr (.inl ⟨_, (Outcome.next_inj.mp h).symm⟩)
  | lwSeed2 => exact .inr (.inl ⟨_, (Outcome.next_inj.mp h).symm⟩)
  | lwResult0 => exact .inr (.inl ⟨_, (Outcome.next_inj.mp h).symm⟩)
  | lwResult1 => exact .inr (.inl ⟨_, (Outcome.next_inj.mp h).symm⟩)
  | lwReserved off => exact .inr (.inl ⟨_, (Outcome.next_inj.mp h).symm⟩)
  | swStatus v => exact .inl (Outcome.next_inj.mp h).symm
  | swResult0 v => exact .inl (Outcome.next_inj.mp h).symm
  | swResult1 v => exact .inl (Outcome.next_inj.mp h).symm
  | swReserved off v => exact .inl (Outcome.next_inj.mp h).symm
  | swSrcAddr v => exact .inr (.inr (.inl ⟨v, (Outcome.next_inj.mp h).symm, rfl⟩))
  | swLen v => exact .inr (.inr (.inr (.inl ⟨v, (Outcome.next_inj.mp h).symm, rfl⟩)))
  | swSeed1 v => exact .inr (.inr (.inr (.inr (.inl ⟨v, (Outcome.next_inj.mp h).symm, rfl⟩))))
  | swSeed2 v => exact .inr (.inr (.inr (.inr (.inr (.inl ⟨v, (Outcome.next_inj.mp h).symm, rfl⟩)))))
  | stepInit => have e := (Outcome.next_inj.mp h).symm; simp [e]
  | stepBlock => have e := (Outcome.next_inj.mp h).symm; simp [e]
  | stepTail => have e := (Outcome.next_inj.mp h).symm; simp [e]
  | stepFinal => have e := (Outcome.next_inj.mp h).symm; simp [e]
  | stepWb => have e := (Outcome.next_inj.mp h).symm; simp [e]

end Sys2Proof.Machine
end

