-- ==== Sys2Proof/Laws/Step.lean ====
section
/-! SUPPORT. What one step can do: the inversion lemma of `step`, for every whole-machine statement to cite. -/

namespace Sys2Proof.Machine

/-- `s` after the step has taken its turn off the list. -/
theorem popTurn_cons {s : State} {u : Turn} {rest : List Turn} (h : s.turns = u :: rest) :
    s.popTurn = { s with turns := rest } := by
  simp [State.popTurn, h]

theorem step_nil {s : State} (h : s.turns = []) : step s = engineMove s := by
  simp [step, h]

theorem step_cons {s : State} {u : Turn} {rest : List Turn} (h : s.turns = u :: rest) :
    step s = runTurn u s.popTurn := by
  simp [step, h]

/-- A fetched encoding that answers a next state decoded to an instruction that did. -/
theorem runFetched_next {f : Fetched} {s t : State} (h : runFetched f s = .next t) :
    ∃ i, decode f = .ok i ∧ exec i s = .next t := by
  unfold runFetched at h
  split at h
  · rename_i i hi
    exact ⟨i, hi, h⟩
  · cases h

/-- The engine's move: it passes with `phase = IDLE`, else it is the step of its phase. -/
theorem engineMove_next {s t : State} (h : engineMove s = .next t) :
    (s.phase = Phase.idle ∧ t = s) ∨
    (s.phase ≠ Phase.idle ∧ ∃ i, decodePhase s.phase = .ok i ∧ exec i s = .next t) := by
  unfold engineMove at h
  split at h
  · rename_i hb
    obtain ⟨i, hi, he⟩ := runFetched_next h
    exact .inr ⟨busy_iff.mp hb, i, hi, he⟩
  · rename_i hb
    exact .inl ⟨not_busy_iff.mp (by simpa using hb), (Outcome.next_inj.mp h).symm⟩

/-- Everything a turn that answers a next state can be. -/
theorem runTurn_next {u : Turn} {s t : State} (h : runTurn u s = .next t) :
    (u = .engine ∧ engineMove s = .next t) ∨
    (∃ acc i, (u = .access acc ∨ ∃ b, u = .bus b ∧ b.resolve s.windowBase = .ok acc) ∧ decodeAccess acc = .ok i ∧
      exec i s = .next t) ∨
    (∃ w, u = .command w ∧ exec (decodeCommandWord w) s = .next t) ∨
    (∃ addr v, u = .memWrite addr v ∧ t = s.hostStore addr v) ∨
    (u = .reset ∧ t = s.assertReset) := by
  cases u with
  | engine => exact .inl ⟨rfl, h⟩
  | access acc =>
    obtain ⟨i, hi, he⟩ := runFetched_next (f := .mmio acc) h
    exact .inr (.inl ⟨acc, i, .inl rfl, hi, he⟩)
  | command w =>
    obtain ⟨i, hi, he⟩ := runFetched_next (f := .cmd w) h
    cases hi
    exact .inr (.inr (.inl ⟨w, rfl, he⟩))
  | bus b =>
    simp only [runTurn] at h
    split at h
    · rename_i acc hacc
      obtain ⟨i, hi, he⟩ := runFetched_next (f := .mmio acc) h
      exact .inr (.inl ⟨acc, i, .inr ⟨b, rfl, hacc⟩, hi, he⟩)
    · cases h
  | memWrite addr v => exact .inr (.inr (.inr (.inl ⟨addr, v, rfl, (Outcome.next_inj.mp h).symm⟩)))
  | reset => exact .inr (.inr (.inr (.inr ⟨rfl, (Outcome.next_inj.mp h).symm⟩)))

/-- Everything a step that answers a next state can be: an engine move of `s` itself or of `s` less its first turn, or a host
instruction, a host write or a reset, of `s` less its first turn. -/
theorem step_next {s t : State} (h : step s = .next t) :
    (s.turns = [] ∧ engineMove s = .next t) ∨
    (∃ u rest, s.turns = u :: rest ∧ runTurn u s.popTurn = .next t) := by
  cases hs : s.turns with
  | nil => exact .inl ⟨rfl, by rw [← h, step_nil hs]⟩
  | cons u rest => exact .inr ⟨u, rest, rfl, by rw [← h, step_cons hs]⟩

end Sys2Proof.Machine
end

