-- ==== Sys2Proof/Laws/Cases.lean ====
section
/-! SUPPORT. What a step can do, said once: the cases of a load, a store, a host instruction, an engine step and a whole
step. -/

namespace Sys2Proof.Machine

/-- Every instruction of the host answers a next state. -/
theorem exec_host_next {i : Instr} (h : i.isEngineStep = false) (s : State) : ∃ t, exec i s = .next t := by
  cases i with
  | hashSingle => rcases issueHash_cases .single s with h | h <;> exact ⟨_, h.2⟩
  | hashDual => rcases issueHash_cases .dual s with h | h <;> exact ⟨_, h.2⟩
  | swCtrl w => rcases presentCommand_cases w s with e | e | ⟨hp, e⟩ | ⟨m, hp, e⟩ <;> exact ⟨_, e⟩
  | phaseUnused => cases h
  | _ => exact ⟨_, rfl⟩

/-- A load, by its offset. -/
theorem exec_load (off : BitVec 8) (s : State) :
    exec (decodeLoad off) s = .next (s.answer (
      if off = 0x04#8 then s.statusWord
          else if off = 0x08#8 then s.srcAddr
          else if off = 0x0C#8 then s.len
          else if off = 0x10#8 then s.seed1
          else if off = 0x14#8 then s.seed2
          else if off = 0x18#8 then s.result0
          else if off = 0x1C#8 then s.result1
          else 0x00000000#32)) := by
  unfold decodeLoad
  by_cases h0 : off = 0#8
  · subst h0; rfl
  rw [if_neg h0]
  repeat' split
  all_goals rfl

/-- A store, by its offset. -/
theorem exec_store (off : BitVec 8) (v : Word) (s : State) :
    exec (decodeStore off v) s =
      if off = 0x00#8 then exec (decodeCommandWord v) s
        else if off = 0x08#8 then .next (s.setSrcAddr v)
        else if off = 0x0C#8 then .next (s.setLen v)
        else if off = 0x10#8 then .next (s.setSeed1 v)
        else if off = 0x14#8 then .next (s.setSeed2 v)
        else .next s := by
  unfold decodeStore
  by_cases h0 : off = 0#8
  · subst h0
    simp only [exec, execSwCtrl, presentCommand, decodeCommandWord, if_true]
    split <;> rename_i hh <;> simp [hh] <;> rfl
  rw [if_neg h0, if_neg h0]
  by_cases h4 : off = 4#8
  · subst h4; rfl
  rw [if_neg h4]
  repeat' split
  all_goals rfl

/-- An engine step, by the phase code. -/
theorem execPhase_next {c : BitVec 3} {i : Instr} (h : decodePhase c = .ok i) (s t : State)
    (he : exec i s = .next t) :
    (c = 1#3 ∧ t = s.initialise) ∨ (c = 2#3 ∧ t = s.absorbBlock.drivePort s.blockAddrs) ∨
    (c = 3#3 ∧ t = s.absorbTail.drivePort s.tailAddrs) ∨ (c = 4#3 ∧ t = s.avalanche) ∨
    (c = 5#3 ∧ t = s.writeBack) := by
  rcases decodePhase_ok h with ⟨rfl,hh⟩|⟨rfl,hh⟩|⟨rfl,hh⟩|⟨rfl,hh⟩|⟨rfl,hh⟩|⟨rfl,hh⟩
  · exact .inl ⟨hh, (Outcome.next_inj.mp he).symm⟩
  · exact .inr (.inl ⟨hh, (Outcome.next_inj.mp he).symm⟩)
  · exact .inr (.inr (.inl ⟨hh, (Outcome.next_inj.mp he).symm⟩))
  · exact .inr (.inr (.inr (.inl ⟨hh, (Outcome.next_inj.mp he).symm⟩)))
  · exact .inr (.inr (.inr (.inr ⟨hh, (Outcome.next_inj.mp he).symm⟩)))
  · simp [exec, execPhaseUnused] at he

/-- What an instruction of the host can do. -/
theorem execHost_cases {i : Instr} {s t : State} (hi : i.isEngineStep = false) (h : exec i s = .next t) :
    t = s ∨ (∃ v, t = s.answer v) ∨ (∃ v, t = s.setSrcAddr v) ∨ (∃ v, t = s.setLen v) ∨ (∃ v, t = s.setSeed1 v) ∨
    (∃ v, t = s.setSeed2 v) ∨ t = s.cmdError 1#4 ∨ (s.phase ≠ 0#3 ∧ t = s.cmdError 2#4) ∨
    (∃ m, s.phase = 0#3 ∧ t = s.accept m) := by
  rcases exec_cases h with e | e | ⟨v, e, _⟩ | ⟨v, e, _⟩ | ⟨v, e, _⟩ | ⟨v, e, _⟩ | e | e | e |
    ⟨rfl, _⟩ | ⟨rfl, _⟩ | ⟨rfl, _⟩ | ⟨rfl, _⟩ | ⟨rfl, _⟩
  · simp [e]
  · simp [e]
  · exact .inr (.inr (.inl ⟨v,e⟩))
  · exact .inr (.inr (.inr (.inl ⟨v,e⟩)))
  · exact .inr (.inr (.inr (.inr (.inl ⟨v,e⟩))))
  · exact .inr (.inr (.inr (.inr (.inr (.inl ⟨v,e⟩)))))
  · exact .inr (.inr (.inr (.inr (.inr (.inr (.inl e))))))
  · exact .inr (.inr (.inr (.inr (.inr (.inr (.inr (.inl e)))))))
  · exact .inr (.inr (.inr (.inr (.inr (.inr (.inr (.inr e)))))))
  all_goals cases hi

theorem access_notEngine {acc : Access} {i : Instr} (h : decodeAccess acc = .ok i) :
    i.isEngineStep = false := by
  rcases decodeAccess_isHost h with h | h <;> cases i <;> simp_all [Instr.isLoad, Instr.isStore, Instr.isEngineStep]

/-- What a step can do: with `s0` the state less its turn, an idle engine's turn, one of the five engine steps, an
instruction of the host, a write of host memory, or reset. -/
theorem step_cases {s t : State} (h : step s = .next t) :
    ∃ s0 : State, (s0 = s ∨ s0 = s.popTurn) ∧
    ((s.phase = 0#3 ∧ t = s0) ∨
    (s.phase = 1#3 ∧ t = s0.initialise) ∨
    (s.phase = 2#3 ∧ t = s0.absorbBlock.drivePort s0.blockAddrs) ∨
    (s.phase = 3#3 ∧ t = s0.absorbTail.drivePort s0.tailAddrs) ∨
    (s.phase = 4#3 ∧ t = s0.avalanche) ∨ (s.phase = 5#3 ∧ t = s0.writeBack) ∨
    (∃ i, i.isEngineStep = false ∧ exec i s0 = .next t) ∨
    (∃ a v rest, s.turns = .memWrite a v :: rest ∧ t = s0.hostStore a v) ∨
    (∃ rest, s.turns = .reset :: rest ∧ t = s0.assertReset)) := by
  rcases step_next h with ⟨hn, he⟩ | ⟨u, rest, hu, he⟩
  · refine ⟨s, .inl rfl, ?_⟩
    rcases engineMove_next he with ⟨hp, rfl⟩ | ⟨hp, i, hi, hx⟩
    · exact .inl ⟨hp, rfl⟩
    · rcases execPhase_next hi s t hx with h|h|h|h|h <;> simp [h]
  · refine ⟨s.popTurn, .inr rfl, ?_⟩
    rcases runTurn_next he with ⟨rfl, he⟩ | ⟨acc, i, _, hi, hx⟩ | ⟨w, rfl, hx⟩ | ⟨a, v, rfl, rfl⟩ | ⟨rfl, rfl⟩
    · rcases engineMove_next he with ⟨hp, rfl⟩ | ⟨hp, i, hi, hx⟩
      · exact .inl ⟨hp, rfl⟩
      · rcases execPhase_next hi s.popTurn t hx with h|h|h|h|h <;> simp at h <;> simp [h]
    · refine .inr (.inr (.inr (.inr (.inr (.inr (.inl ⟨i, access_notEngine hi, hx⟩))))))
    · refine .inr (.inr (.inr (.inr (.inr (.inr (.inl ⟨_, decodeCommandWord_notEngineStep w, hx⟩))))))
    · simp [hu]
    · simp [hu]

end Sys2Proof.Machine
end

