-- ==== Sys2Proof/Laws/Memory.lean ====
section
/-! SUPPORT. The laws of host memory: what a write leaves to be read, and that every operation keeps the canonical form. -/

namespace Sys2Proof.Machine

@[simp] theorem Memory.read_nil (x : Nat) : Memory.read [] x = Memory.unlisted := rfl

@[simp] theorem Memory.read_cons_self (a : Nat) (v : Byte) (m : Memory) : Memory.read ((a, v) :: m) a = v := by
  simp [Memory.read]

theorem Memory.read_cons_ne {a x : Nat} (h : a ≠ x) (v : Byte) (m : Memory) :
    Memory.read ((a, v) :: m) x = Memory.read m x := by
  simp [Memory.read, h]

/-- The canonical form, one cell at a time. -/
theorem Memory.wfFrom_cons {low a : Nat} {v : Byte} {m : Memory} :
    Memory.wfFrom low ((a, v) :: m) = true ↔
      low ≤ a ∧ a < 2 ^ 32 ∧ v ≠ Memory.unlisted ∧ Memory.wfFrom (a + 1) m = true := by
  simp [Memory.wfFrom, and_assoc]

theorem Memory.wfFrom_mono {low low' : Nat} {m : Memory} (h : Memory.wfFrom low m = true) (hl : low' ≤ low) :
    Memory.wfFrom low' m = true := by
  cases m with
  | nil => rfl
  | cons c m =>
    rw [Memory.wfFrom_cons] at h ⊢
    exact ⟨by omega, h.2⟩

/-- An address below the first listed one reads as an unlisted one. -/
theorem Memory.read_of_lt {m : Memory} {low x : Nat} (h : Memory.wfFrom low m = true) (hx : x < low) :
    Memory.read m x = Memory.unlisted := by
  induction m generalizing low with
  | nil => rfl
  | cons c m ih =>
    obtain ⟨a, v⟩ := c
    rw [Memory.wfFrom_cons] at h
    rw [Memory.read_cons_ne (by omega)]
    exact ih h.2.2.2 (by omega)

theorem Memory.wfFrom_consCell {low a : Nat} {v : Byte} {m : Memory} (ha : low ≤ a) (hb : a < 2 ^ 32)
    (h : Memory.wfFrom (a + 1) m = true) : Memory.wfFrom low (Memory.cons a v m) = true := by
  unfold Memory.cons
  split
  · exact Memory.wfFrom_mono h (by omega)
  · rename_i hv
    exact Memory.wfFrom_cons.mpr ⟨ha, hb, hv, h⟩

theorem Memory.read_consCell {a x : Nat} {v : Byte} {m : Memory} (h : Memory.wfFrom (a + 1) m = true) :
    Memory.read (Memory.cons a v m) x = if a = x then v else Memory.read m x := by
  unfold Memory.cons
  by_cases hv : v = Memory.unlisted
  · by_cases hx : a = x
    · subst hx
      simp [hv, Memory.read_of_lt h (Nat.lt_succ_self a)]
    · simp [hv, hx]
  · simp [hv, Memory.read]

/-- A write keeps the canonical form. -/
theorem Memory.wfFrom_write {m : Memory} {low addr : Nat} {v : Byte} (h : Memory.wfFrom low m = true)
    (hl : low ≤ addr) (hb : addr < 2 ^ 32) : Memory.wfFrom low (Memory.write m addr v) = true := by
  induction m generalizing low with
  | nil => exact Memory.wfFrom_consCell hl hb rfl
  | cons c m ih =>
    obtain ⟨a, w⟩ := c
    rw [Memory.wfFrom_cons] at h
    unfold Memory.write
    split
    · exact Memory.wfFrom_consCell hl hb (Memory.wfFrom_cons.mpr ⟨by omega, h.2⟩)
    · split
      · exact Memory.wfFrom_consCell hl hb (by rename_i e; rw [e]; exact h.2.2.2)
      · exact Memory.wfFrom_cons.mpr ⟨h.1, h.2.1, h.2.2.1, ih h.2.2.2 (by omega)⟩

/-- What a write of a canonical memory leaves to be read. -/
theorem Memory.read_write {m : Memory} {low addr x : Nat} {v : Byte} (h : Memory.wfFrom low m = true) :
    Memory.read (Memory.write m addr v) x = if addr = x then v else Memory.read m x := by
  induction m generalizing low with
  | nil => exact Memory.read_consCell rfl
  | cons c m ih =>
    obtain ⟨a, w⟩ := c
    have h' := Memory.wfFrom_cons.mp h
    unfold Memory.write
    split
    · exact Memory.read_consCell (Memory.wfFrom_cons.mpr ⟨by omega, h'.2⟩)
    · split
      · rename_i e
        rw [Memory.read_consCell (by rw [e]; exact h'.2.2.2)]
        by_cases hx : addr = x
        · simp [hx]
        · simp [hx, Memory.read_cons_ne (show a ≠ x from e ▸ hx)]
      · rename_i hne
        by_cases hx : a = x
        · subst hx
          simp [hne]
        · rw [Memory.read_cons_ne hx, Memory.read_cons_ne hx, ih h'.2.2.2]

/-- A write to a 32-bit address keeps the canonical form. -/
theorem Memory.wf_write {m : Memory} (h : m.wf = true) (addr : Addr) (v : Byte) :
    (m.write addr.toNat v).wf = true :=
  Memory.wfFrom_write h (Nat.zero_le _) addr.isLt

/-- Memories in canonical form that read alike are equal lists. -/
theorem Memory.ext_read {m m' : Memory} {low : Nat} (h : Memory.wfFrom low m = true)
    (h' : Memory.wfFrom low m' = true) (e : ∀ a, m.read a = m'.read a) : m = m' := by
  induction m generalizing low m' with
  | nil =>
    cases m' with
    | nil => rfl
    | cons c r =>
      obtain ⟨_, _, hv, _⟩ := Memory.wfFrom_cons.mp h'
      obtain ⟨a', v'⟩ := c
      exact absurd ((e a').symm.trans rfl) (by simpa using hv)
  | cons c m ih =>
    obtain ⟨a, v⟩ := c
    obtain ⟨hl, hb, hv, hr⟩ := Memory.wfFrom_cons.mp h
    cases m' with
    | nil => exact absurd (e a) (by simpa using hv)
    | cons c' m' =>
      obtain ⟨a', v'⟩ := c'
      obtain ⟨hl', hb', hv', hr'⟩ := Memory.wfFrom_cons.mp h'
      have ha : a = a' := by
        rcases Nat.lt_trichotomy a a' with q | q | q
        · have := e a
          rw [Memory.read_cons_self, Memory.read_cons_ne (by omega), Memory.read_of_lt hr' (by omega)] at this
          exact absurd this hv
        · exact q
        · have := e a'
          rw [Memory.read_cons_self, Memory.read_cons_ne (by omega), Memory.read_of_lt hr (by omega)] at this
          exact absurd this.symm hv'
      subst ha
      have hvv : v = v' := by simpa using e a
      subst hvv
      rw [ih hr hr' (fun x => ?_)]
      by_cases hx : a = x
      · subst hx
        rw [Memory.read_of_lt hr (by omega), Memory.read_of_lt hr' (by omega)]
      · simpa [Memory.read_cons_ne hx] using e x

/-- The bytes a `mem` directive places keep the canonical form. -/
theorem Memory.wf_place {m : Memory} (h : m.wf = true) (addr : Addr) (bs : List Byte) :
    (m.place addr bs).wf = true := by
  induction bs generalizing m addr with
  | nil => exact h
  | cons b bs ih => exact ih (Memory.wf_write h addr b) _

/-- Every state operation that writes memory keeps its canonical form. -/
theorem State.wf_hostStore {s : State} (h : s.mem.wf = true) (addr : Addr) (v : Byte) :
    (s.hostStore addr v).mem.wf = true :=
  Memory.wf_write h addr v

theorem State.wf_reset : State.reset.mem.wf = true := rfl

end Sys2Proof.Machine
end

