-- ==== Sys2Proof/Laws/Operands.lean ====
section
/-! SUPPORT. The value of a little-endian word, the addresses of an input window, and the bus address of a window offset. -/

namespace Sys2Proof.Machine

/-- Two parts with no bit in common add. -/
theorem or_shift {x y i : Nat} (h : x < 2 ^ i) : x ||| y <<< i = x + y * 2 ^ i := by
  rw [Nat.or_comm, ← Nat.shiftLeft_add_eq_or_of_lt h, Nat.shiftLeft_eq, Nat.add_comm]

/-- The four bytes of a little-endian word have no bit in common, so its value is their weighted sum. -/
theorem le32_toNat (b0 b1 b2 b3 : Byte) :
    (le32 b0 b1 b2 b3).toNat = b0.toNat + b1.toNat * 2 ^ 8 + b2.toNat * 2 ^ 16 + b3.toNat * 2 ^ 24 := by
  have := b0.isLt; have := b1.isLt; have := b2.isLt; have := b3.isLt
  have sh : ∀ (b : Byte) (k : Nat), k ≤ 24 → ((b.setWidth 32 : Word) <<< k).toNat = b.toNat <<< k := by
    intro b k hk
    have := b.isLt
    have : 2 ^ k ≤ 2 ^ 24 := Nat.pow_le_pow_right (by omega) hk
    rw [BitVec.toNat_shiftLeft, BitVec.toNat_setWidth, Nat.mod_eq_of_lt (a := b.toNat) (by omega), Nat.shiftLeft_eq]
    apply Nat.mod_eq_of_lt
    calc _ ≤ 255 * 2 ^ 24 := Nat.mul_le_mul (by omega) this
      _ < _ := by norm_num
  simp only [le32, zextByte, BitVec.toNat_or]
  rw [sh _ _ (by omega), sh _ _ (by omega), sh _ _ (by omega), BitVec.toNat_setWidth, Nat.mod_eq_of_lt (by omega),
    or_shift (i := 8) (by omega), or_shift (i := 16) (by omega), or_shift (i := 24) (by omega)]

/-- A little-endian word is the sum of its shifted bytes. -/
theorem le32_add (b0 b1 b2 b3 : Byte) :
    le32 b0 b1 b2 b3 = b0.setWidth 32 + (b1.setWidth 32 <<< 8) + (b2.setWidth 32 <<< 16) + (b3.setWidth 32 <<< 24) := by
  apply BitVec.eq_of_toNat_eq
  rw [le32_toNat]
  have := b0.isLt; have := b1.isLt; have := b2.isLt; have := b3.isLt
  simp [Nat.shiftLeft_eq]
  omega

/-- The window is the addresses `src + i` modulo 2^32, for the `i` below its length. -/
theorem inWindow_iff (src len addr : Word) :
    inWindow src len addr = true ↔
      ∃ i : Nat, i < len.toNat ∧ addr = src + BitVec.ofNat 32 i := by
  simp only [inWindow, decide_eq_true_eq]
  constructor
  · intro h
    exact ⟨(addr-src).toNat, h, by rw [BitVec.ofNat_toNat, BitVec.setWidth_eq]; ring⟩
  · rintro ⟨i, h, rfl⟩
    have : src + BitVec.ofNat 32 i - src = BitVec.ofNat 32 i := by ring
    rw [this]; simp
    have := len.isLt
    omega

/-- A bus address at the base plus an offset is that offset of the window. -/
theorem resolve_base (d : Dir) (n : Nat) (off : BitVec 8) (v : Word) (base : Addr) :
    (BusAccess.mk d n (base + off.setWidth 32) v).resolve base = .ok ⟨d, n, off, v⟩ := by
  unfold BusAccess.resolve
  have e : base + off.setWidth 32 - base = off.setWidth 32 := by
    rw [BitVec.add_comm, BitVec.add_sub_cancel]
  have := off.isLt
  simp only [e]
  rw [if_pos (by simp; omega)]
  simp

end Sys2Proof.Machine
end

