-- ==== Sys2Proof/Laws/PerInstr.lean ====
section
/-! SUPPORT. Families of statements about every instruction as syntax, one lemma per constructor: decoding the encoding of a
well-formed instruction gives it back. -/

namespace Sys2Proof.Laws.DecodeEncode

/-- A well-formed instruction is what its encoding decodes to. -/
def Statement (i : Instr) : Prop := i.wellFormed = true → decode (encode i) = .ok i

theorem nop : Statement .nop := fun _ => rfl
theorem hashSingle : Statement .hashSingle := fun _ => rfl
theorem hashDual : Statement .hashDual := fun _ => rfl
theorem illegal (w : Word) : Statement (.illegal w) := by
  intro h
  simp only [Instr.wellFormed, Bool.and_eq_true, bne_iff_ne] at h
  simp [encode, decode, decodeCommandWord, decodeCmd, h.1.1, h.1.2, h.2]
theorem lwCtrl : Statement .lwCtrl := fun _ => rfl
theorem swCtrl (w : Word) : Statement (.swCtrl w) := fun _ => rfl
theorem lwStatus : Statement .lwStatus := fun _ => rfl
theorem swStatus (v : Word) : Statement (.swStatus v) := fun _ => decode_encodeStore (by decide) v
theorem lwSrcAddr : Statement .lwSrcAddr := fun _ => rfl
theorem swSrcAddr (v : Word) : Statement (.swSrcAddr v) := fun _ => decode_encodeStore (by decide) v
theorem lwLen : Statement .lwLen := fun _ => rfl
theorem swLen (v : Word) : Statement (.swLen v) := fun _ => decode_encodeStore (by decide) v
theorem lwSeed1 : Statement .lwSeed1 := fun _ => rfl
theorem swSeed1 (v : Word) : Statement (.swSeed1 v) := fun _ => decode_encodeStore (by decide) v
theorem lwSeed2 : Statement .lwSeed2 := fun _ => rfl
theorem swSeed2 (v : Word) : Statement (.swSeed2 v) := fun _ => decode_encodeStore (by decide) v
theorem lwResult0 : Statement .lwResult0 := fun _ => rfl
theorem swResult0 (v : Word) : Statement (.swResult0 v) := fun _ => decode_encodeStore (by decide) v
theorem lwResult1 : Statement .lwResult1 := fun _ => rfl
theorem swResult1 (v : Word) : Statement (.swResult1 v) := fun _ => decode_encodeStore (by decide) v
theorem lwReserved (off : BitVec 8) : Statement (.lwReserved off) := by
  intro h
  simp only [Instr.wellFormed, Bool.and_eq_true, decide_eq_true_eq] at h
  exact (decode_encodeLoad h.2).trans (congrArg Except.ok (decodeLoad_reserved h.1))
theorem swReserved (off : BitVec 8) (v : Word) : Statement (.swReserved off v) := by
  intro h
  simp only [Instr.wellFormed, Bool.and_eq_true, decide_eq_true_eq] at h
  exact (decode_encodeStore h.2 v).trans (congrArg Except.ok (decodeStore_reserved h.1 v))
theorem stepInit : Statement .stepInit := fun _ => rfl
theorem stepBlock : Statement .stepBlock := fun _ => rfl
theorem stepTail : Statement .stepTail := fun _ => rfl
theorem stepFinal : Statement .stepFinal := fun _ => rfl
theorem stepWb : Statement .stepWb := fun _ => rfl
theorem phaseUnused (code : BitVec 3) : Statement (.phaseUnused code) := by
  intro h
  simp only [Instr.wellFormed, Bool.or_eq_true, beq_iff_eq] at h
  rcases h with rfl | rfl <;> rfl

end Sys2Proof.Laws.DecodeEncode
end

