-- ==== Sys2Proof/Laws/Platform.lean ====
section
/-! SUPPORT. What a move on a platform can do, said once. -/

namespace Sys2Proof.Machine

/-- A move of one engine that answers a next platform: no engine has the number, or that engine alone is replaced. -/
theorem Platform.moveOne_next {p q : Platform} {k : Nat} {f : State → Result} (h : p.moveOne k f = .next q) :
    (p[k]? = none ∧ q = p) ∨ ∃ e t, p[k]? = some e ∧ f e = .next t ∧ q = p.set k t := by
  unfold Platform.moveOne at h
  split at h
  · next hk => cases h; exact .inl ⟨hk, rfl⟩
  · next e hk =>
    split at h
    · next t ht => cases h; exact .inr ⟨e, t, hk, ht, rfl⟩
    · cases h
    · cases h

/-- A move of an engine on a platform that has it is that engine's own. -/
theorem Platform.moveOne_of_next {p : Platform} {k : Nat} {f : State → Result} {e t : State} (hk : p[k]? = some e)
    (h : f e = .next t) : p.moveOne k f = .next (p.set k t) := by
  simp [Platform.moveOne, hk, h]

/-- A move on a platform that answers a next one: a byte written for every engine, or a move of one engine, which is the
engine's own turn, a bus access to its window, or its reset. -/
theorem Platform.step_next {m : PlatformMove} {p q : Platform} (h : Platform.step m p = .next q) :
    (∃ addr v, m = .memWrite addr v ∧ q = p.map (fun e => e.hostStore addr v)) ∨
    ∃ k u, p.mover m = some k ∧ p.moveOne k (runTurn u) = .next q ∧
      ((m = .engine k ∧ u = .engine) ∨ (∃ b, m = .bus b ∧ u = .bus b) ∨ (m = .reset k ∧ u = .reset)) := by
  cases m with
  | engine k => exact .inr ⟨k, .engine, rfl, h, .inl ⟨rfl, rfl⟩⟩
  | bus b =>
    simp only [Platform.step] at h
    split at h
    · next k hk => exact .inr ⟨k, .bus b, hk, h, .inr (.inl ⟨b, rfl, rfl⟩)⟩
    · cases h
  | memWrite addr v => cases h; exact .inl ⟨addr, v, rfl, rfl⟩
  | reset k => exact .inr ⟨k, .reset, rfl, h, .inr (.inr ⟨rfl, rfl⟩)⟩

end Sys2Proof.Machine
end

