-- ==== Sys2Proof/Laws/Run.lean ====
section
/-! SUPPORT. Runs of several steps: one lemma per way a run goes on, and composition. -/

namespace Sys2Proof.Machine

@[simp] theorem run_zero (s : State) : State.run 0 s = .next s := rfl

/-- A run whose first step answers a next state goes on from it. -/
theorem run_succ {s t : State} (n : Nat) (h : step s = .next t) : State.run (n + 1) s = State.run n t := by
  have h' : core.step s = .next t := h
  simp only [State.run, Host.Core.run, h']
  rfl

theorem run_succ_fault {s : State} {r : Fault} (n : Nat) (h : step s = .fault r) : State.run (n + 1) s = .fault r := by
  have h' : core.step s = .fault r := h
  simp only [State.run, Host.Core.run, h']
  rfl

theorem run_succ_refused {s : State} {r : Refusal} (n : Nat) (h : step s = .refused r) :
    State.run (n + 1) s = .refused r := by
  have h' : core.step s = .refused r := h
  simp only [State.run, Host.Core.run, h']
  rfl

theorem run_one (s : State) : State.run 1 s = step s := by
  cases h : step s with
  | next t => exact run_succ 0 h
  | fault r => exact run_succ_fault 0 h
  | refused r => exact run_succ_refused 0 h

/-- Two runs in a row are one run. -/
theorem run_add {m : Nat} {s t : State} (n : Nat) (h : State.run m s = .next t) :
    State.run (m + n) s = State.run n t := by
  induction m generalizing s with
  | zero =>
    rw [run_zero, Outcome.next_inj] at h
    rw [h, Nat.zero_add]
  | succ m ih =>
    rw [Nat.succ_add]
    cases hs : step s with
    | next u =>
      rw [run_succ _ hs] at h ⊢
      exact ih h
    | fault r => rw [run_succ_fault _ hs] at h; cases h
    | refused r => rw [run_succ_refused _ hs] at h; cases h

end Sys2Proof.Machine
end

