-- ==== Sys2Proof/Tests/Slice0.lean ====
section
/-! SUPPORT. The model's own tests: ill-formed terms refused, words of the spec's encodings decoded, and the spec's worked
examples and vectors (spec/95_test_vectors.md, by section). -/

namespace Sys2Proof.Tests

open Sys2Proof.Machine

/-! ## WellFormed: each check refuses an ill-formed term -/

theorem test_illFormed_illegal0 : (Instr.illegal 0x0#32).wellFormed = false := by decide
theorem test_illFormed_illegal1 : (Instr.illegal 0x1#32).wellFormed = false := by decide
theorem test_illFormed_illegal2 : (Instr.illegal 0x2#32).wellFormed = false := by decide
theorem test_illFormed_lwReserved_low : (Instr.lwReserved 0x1C#8).wellFormed = false := by decide
theorem test_illFormed_lwReserved_align : (Instr.lwReserved 0x22#8).wellFormed = false := by decide
theorem test_illFormed_swReserved_low : (Instr.swReserved 0x00#8 1#32).wellFormed = false := by decide
theorem test_illFormed_swReserved_align : (Instr.swReserved 0xFD#8 1#32).wellFormed = false := by decide
theorem test_illFormed_phaseUnused : (Instr.phaseUnused 0b101#3).wellFormed = false := by decide

/-! ## Decoding: words written out from R71, R72, R76, R77 -/

-- R72 and section 2.10
theorem test_decode_nop : decode (.cmd 0b00000000000000000000000000000000#32) = .ok .nop := by decide
theorem test_decode_hashSingle : decode (.cmd 0b00000000000000000000000000000001#32) = .ok .hashSingle := by decide
theorem test_decode_hashDual : decode (.cmd 0b00000000000000000000000000000010#32) = .ok .hashDual := by decide
theorem test_decode_illegal :
    [0x3#32, 0xf#32, 0x10#32, 0x11#32, 0x80000001#32, 0xffffffff#32].map (fun w => decode (.cmd w)) =
      [0x3#32, 0xf#32, 0x10#32, 0x11#32, 0x80000001#32, 0xffffffff#32].map (fun w => .ok (.illegal w)) := by decide
-- R76: direction, 32 bits, OFF
theorem test_decode_loads :
    [0x00#8, 0x04#8, 0x08#8, 0x0C#8, 0x10#8, 0x14#8, 0x18#8, 0x1C#8, 0x20#8, 0xFC#8].map
        (fun off => decode (.mmio ⟨.read, 4, off, 0#32⟩)) =
      [.ok .lwCtrl, .ok .lwStatus, .ok .lwSrcAddr, .ok .lwLen, .ok .lwSeed1, .ok .lwSeed2, .ok .lwResult0,
        .ok .lwResult1, .ok (.lwReserved 0x20#8), .ok (.lwReserved 0xFC#8)] := by decide
theorem test_decode_stores :
    [0x00#8, 0x04#8, 0x08#8, 0x0C#8, 0x10#8, 0x14#8, 0x18#8, 0x1C#8, 0x20#8, 0xFC#8].map
        (fun off => decode (.mmio ⟨.write, 4, off, 7#32⟩)) =
      [.ok (.swCtrl 7#32), .ok (.swStatus 7#32), .ok (.swSrcAddr 7#32), .ok (.swLen 7#32), .ok (.swSeed1 7#32),
        .ok (.swSeed2 7#32), .ok (.swResult0 7#32), .ok (.swResult1 7#32), .ok (.swReserved 0x20#8 7#32),
        .ok (.swReserved 0xFC#8 7#32)] := by decide
-- R53: byte, halfword, misaligned and wider accesses
theorem test_decode_refused : ∀ acc ∈ [Access.mk .read 1 0x04#8 0#32, ⟨.read, 2, 0x04#8, 0#32⟩,
    ⟨.write, 4, 0x02#8, 1#32⟩, ⟨.write, 8, 0x08#8, 1#32⟩], decode (.mmio acc) = .error .windowAccess := by decide
-- R77
theorem test_decode_phases :
    [0b000#3, 0b001#3, 0b010#3, 0b011#3, 0b100#3, 0b101#3, 0b110#3, 0b111#3].map (fun c => decode (.phase c)) =
      [.error .idle, .ok .stepInit, .ok .stepBlock, .ok .stepTail, .ok .stepFinal, .ok .stepWb,
        .ok (.phaseUnused 0b110#3), .ok (.phaseUnused 0b111#3)] := by decide
-- the opcode table's words
theorem test_tableWords : decodeTableWord 32 2 = some .hashDual ∧ decodeTableWord 8 0x0C = some .lwLen ∧
    decodeTableWord 8 0b011 = some .stepTail ∧ decodeTableWord 3 0b100 = some .stepFinal ∧
    decodeTableWord 48 0x1000000070C = some (.swLen 7#32) := by decide

/-! ## The datapath (sections 2.1, 2.2, 2.4, 2.5) -/

theorem test_rotl32 : rotl32 0x80000000#32 4 = 0x00000008#32 ∧ rotl32 0x12345678#32 16 = 0x56781234#32 ∧
    rotl32 0xdeadbeef#32 14 = 0x6fbbf7ab#32 ∧ rotl32 0x00000001#32 31 = 0x80000000#32 := by decide
theorem test_le32 : le32 0x61#8 0x62#8 0x63#8 0x64#8 = 0x64636261#32 ∧ le32 0#8 0#8 0#8 0x80#8 = 0x80000000#32 := by
  decide
theorem test_mix : mix ⟨1#32, 2#32, 3#32⟩ = ⟨0x877d02a0#32, 0xcd175a8d#32, 0xe3fc5c22#32⟩ ∧
    mix ⟨0xffffffff#32, 0#32, 0x80000000#32⟩ = ⟨0x5455a681#32, 0x5dac3251#32, 0xe3cffb52#32⟩ := by decide
theorem test_final : finalMix ⟨1#32, 2#32, 3#32⟩ = ⟨0xc0bbac72#32, 0xd6302d23#32, 0x36ff91db#32⟩ ∧
    finalMix ⟨0xffffffff#32, 0#32, 0x80000000#32⟩ = ⟨0x2b90d066#32, 0x7755a18a#32, 0xe92b84e2#32⟩ := by decide

/-- "Four score and seven years ago" in ASCII (section 3.1). -/
def fourScore : List Byte :=
  [0x46#8, 0x6f#8, 0x75#8, 0x72#8, 0x20#8, 0x73#8, 0x63#8, 0x6f#8, 0x72#8, 0x65#8, 0x20#8, 0x61#8, 0x6e#8, 0x64#8, 0x20#8,
   0x73#8, 0x65#8, 0x76#8, 0x65#8, 0x6e#8, 0x20#8, 0x79#8, 0x65#8, 0x61#8, 0x72#8, 0x73#8, 0x20#8, 0x61#8, 0x67#8, 0x6f#8]

/-- The first n letters of the alphabet in ASCII. -/
def abc (n : Nat) : List Byte := (List.range n).map (fun j => BitVec.ofNat 8 (0x61 + j))

/-! ## H1 and H2 (sections 1.2, 2.6.1, 2.7, 2.12) -/

theorem test_hash2_empty : hash2 [] 0xdeadbeef#32 0xdeadbeef#32 = (0x9c093ccd#32, 0xbd5b7dde#32) := by decide
theorem test_hash2_published : hash2 fourScore 0#32 1#32 = (0xe3607cae#32, 0xbd371de4#32) := by decide
theorem test_hash1_published : hash1 fourScore 1#32 = 0xcd628161#32 := by decide
theorem test_hash1_boundary : (hash1 (abc 1) 0#32, hash1 (abc 11) 0#32, hash1 (abc 12) 0#32, hash1 (abc 13) 0#32,
    hash1 (abc 24) 0#32, hash1 (abc 25) 0#32) =
    (0x58d68708#32, 0x5f61edf8#32, 0x4012f87b#32, 0x928128f9#32, 0x1b631fea#32, 0x6c29c5e2#32) := by decide
theorem test_stepCount : [0, 1, 12, 13, 24, 25, 36, 37].map stepCount = [2, 4, 4, 5, 5, 6, 6, 7] := by decide

/-! ## Single steps -/

/-- The state after an outcome that is a next state. -/
def after (r : Result) : State :=
  match r with
  | .next s => s
  | _ => State.reset

/-- A state with a running command over the alphabet at address 0x2000. -/
def running (phase : BitVec 3) (len k rem : Word) (accs : Accs) (mode : Mode) : State :=
  { State.reset with
    phase := phase, k := k, rem := rem, accs := accs, latch := ⟨0x2000#32, len, 0#32, 0#32, mode⟩,
    mem := Memory.place [] 0x2000#32 (abc 26) }

-- section 2.3: INIT of 30 bytes with seeds 0 and 1, of the empty input, and a length that wraps
theorem test_stepInit : (after (execStepInit (running Phase.init 30#32 0#32 0#32 ⟨0#32, 0#32, 0#32⟩ .dual))).phase =
    0b010#3 ∧ initAccs 30#32 0#32 1#32 = ⟨0xdeadbf0d#32, 0xdeadbf0d#32, 0xdeadbf0e#32⟩ := by decide
theorem test_stepInit_wraps : initAccs 0xffffffff#32 0#32 0#32 = ⟨0xdeadbeee#32, 0xdeadbeee#32, 0xdeadbeee#32⟩ ∧
    initNext 0xffffffff#32 = 0b010#3 ∧ initNext 12#32 = 0b011#3 ∧ initNext 0#32 = 0b101#3 := by decide
-- section 2.8, trace T4: the second BLOCK of 25 bytes
theorem test_stepBlock : (after (execStepBlock (running Phase.block 25#32 12#32 13#32
      ⟨0x99744f6b#32, 0xf430a741#32, 0x8c5c4a3e#32⟩ .single))).accs =
    ⟨0xc46a928f#32, 0xfda0922c#32, 0xe50f8db5#32⟩ := by decide
theorem test_stepBlock_next : (after (execStepBlock (running Phase.block 25#32 12#32 13#32
      ⟨0#32, 0#32, 0#32⟩ .single))).phase = 0b011#3 := by decide
-- section 2.8, trace T2: 12 bytes; trace T3: one byte left at offset 12
theorem test_stepTail_full : (after (execStepTail (running Phase.tail 12#32 0#32 12#32
      ⟨0xdeadbefb#32, 0xdeadbefb#32, 0xdeadbefb#32⟩ .single))).accs =
    ⟨0x4311215c#32, 0x47152560#32, 0x4b192964#32⟩ := by decide
theorem test_stepTail_one : (after (execStepTail (running Phase.tail 13#32 12#32 1#32
      ⟨0x4c77fdfa#32, 0x05eae292#32, 0x5f983eb2#32⟩ .single))) =
    { running Phase.final 13#32 13#32 0#32 ⟨0x4c77fe67#32, 0x05eae292#32, 0x5f983eb2#32⟩ .single with
      reads := [0x200C#32] } := by decide
-- section 2.8, trace T2
theorem test_stepFinal : (after (execStepFinal (running Phase.final 12#32 12#32 0#32
      ⟨0x4311215c#32, 0x47152560#32, 0x4b192964#32⟩ .single))).accs =
    ⟨0x41134970#32, 0x75b50ec0#32, 0x4012f87b#32⟩ := by decide
-- R138's example
theorem test_stepWb_single : (let t := after (execStepWb (running Phase.wb 12#32 12#32 0#32
      ⟨0x41134970#32, 0x75b50ec0#32, 0x4012f87b#32⟩ .single)); (t.result0, t.result1, t.statusWord)) =
    (0x4012f87b#32, 0#32, 0x00000002#32) := by decide
theorem test_stepWb_dual : (let t := after (execStepWb (running Phase.wb 12#32 12#32 0#32
      ⟨0x41134970#32, 0x75b50ec0#32, 0x4012f87b#32⟩ .dual)); (t.result0, t.result1, t.statusWord)) =
    (0x4012f87b#32, 0x75b50ec0#32, 0x0000000a#32) := by decide
-- R79
theorem test_phaseUnused : engineMove { State.reset with phase := 0b110#3 } = .fault .unusedPhase := rfl

-- section 2.11
theorem test_S1 : (after (execLwStatus State.reset)).answers = [0#32] := by decide
theorem test_S5_illegal : (after (execSwCtrl 0x3#32 State.reset)).statusWord = 0x00000014#32 := by decide
theorem test_S5_illegal_row : (after (execIllegal 0x3#32 State.reset)).statusWord = 0x00000014#32 := by decide
theorem test_S6_nop : (after (execNop (after (execIllegal 0x3#32 State.reset)))).statusWord = 0x00000014#32 := by decide
theorem test_S7_accept : (after (execHashSingle (after (execIllegal 0x3#32 State.reset)))).statusWord = 0x00000001#32 := by
  decide
theorem test_dual_accept : (after (execHashDual State.reset)).statusWord = 0x00000009#32 := by decide
theorem test_S10_busy : (after (execHashDual (running Phase.init 13#32 0#32 0#32 ⟨0#32, 0#32, 0#32⟩ .single))).statusWord =
    0x00000025#32 := by decide
theorem test_S13_legalFirst : (after (execSwCtrl 0x12#32
    (running Phase.init 13#32 0#32 0#32 ⟨0#32, 0#32, 0#32⟩ .single))).statusWord = 0x00000015#32 := by decide
theorem test_S14_nopBusy : (after (execSwCtrl 0x0#32
    (running Phase.init 13#32 0#32 0#32 ⟨0#32, 0#32, 0#32⟩ .single))).statusWord = 0x00000001#32 := by decide
-- S15: HASH_SINGLE latches LSEED2 = 0
theorem test_S15_latch : (after (execHashSingle { State.reset with len := 3#32, seed2 := 0x12345678#32 })).latch =
    ⟨0#32, 3#32, 0#32, 0#32, .single⟩ := by decide
theorem test_dual_latch : (after (execHashDual { State.reset with len := 3#32, seed2 := 0x12345678#32 })).latch =
    ⟨0#32, 3#32, 0#32, 0x12345678#32, .dual⟩ := by decide

/-- A state whose registers all differ. -/
def distinct : State :=
  { State.reset with srcAddr := 1#32, len := 2#32, seed1 := 3#32, seed2 := 4#32, result0 := 5#32, result1 := 6#32 }

-- R100: each load answers its own register
theorem test_loads : [execLwCtrl distinct, execLwSrcAddr distinct, execLwLen distinct, execLwSeed1 distinct,
    execLwSeed2 distinct, execLwResult0 distinct, execLwResult1 distinct, execLwReserved 0x40#8 distinct].map
      (fun r => (after r).answers) = [[0#32], [1#32], [2#32], [3#32], [4#32], [5#32], [6#32], [0#32]] := by decide
-- R102, S3: each operand store changes its own register; S4: the other stores change nothing
theorem test_stores : after (execSwSrcAddr 9#32 distinct) = { distinct with srcAddr := 9#32 } ∧
    after (execSwLen 9#32 distinct) = { distinct with len := 9#32 } ∧
    after (execSwSeed1 9#32 distinct) = { distinct with seed1 := 9#32 } ∧
    after (execSwSeed2 9#32 distinct) = { distinct with seed2 := 9#32 } := by decide
theorem test_ignored : [execSwStatus 9#32 distinct, execSwResult0 9#32 distinct, execSwResult1 9#32 distinct,
    execSwReserved 0x20#8 9#32 distinct].map after = [distinct, distinct, distinct, distinct] := by decide

/-! ## Turns, memory and the platform -/

-- P4 (section 3.4): a window that wraps past 0xffffffff
theorem test_windowAddrs_wrap : windowAddrs 0xfffffffa#32 0#32 12 =
    [0xfffffffa#32, 0xfffffffb#32, 0xfffffffc#32, 0xfffffffd#32, 0xfffffffe#32, 0xffffffff#32, 0#32, 1#32, 2#32, 3#32,
      4#32, 5#32] ∧ windowAddrs 0xfffffffa#32 12#32 1 = [6#32] := by decide
theorem test_memory_canonical : Memory.write (Memory.write [] 5 7#8) 3 9#8 = [(3, 9#8), (5, 7#8)] ∧
    Memory.write [(3, 9#8), (5, 7#8)] 3 0#8 = [(5, 7#8)] := by decide
-- R234: a write of the running command's window makes its results draws
theorem test_spoiled : ((running Phase.init 13#32 0#32 0#32 ⟨0#32, 0#32, 0#32⟩ .single).hostStore 0x200C#32 0#8).spoiled =
    true ∧ ((running Phase.init 13#32 0#32 0#32 ⟨0#32, 0#32, 0#32⟩ .single).hostStore 0x200D#32 0#8).spoiled = false := by
  decide
-- S17: reset abandons the command
theorem test_reset_turn : (after (step { running Phase.block 25#32 12#32 13#32 ⟨1#32, 2#32, 3#32⟩ .dual with
    turns := [.reset] })).statusWord = 0x00000000#32 := by decide
-- R82: HASH1 from line 0 on
theorem test_hash1Lines : hash1Lines 0 (.lit 0x1000#32) (.lit 30#32) none 0 1 =
    [.sw 0x08#8 (.lit 0x1000#32), .sw 0x0C#8 (.lit 30#32), .sw 0x10#8 (.lit 0#32), .sw 0x00#8 (.lit 1#32), .lw 0x04#8 0,
      .bz 0 2#32 4, .lw 0x18#8 1] := by decide
theorem test_hash2Lines : (hash2Lines 0 (.var 0) (.var 1) none (some (.lit 7#32)) 2 3 4).take 5 =
    [.sw 0x08#8 (.var 0), .sw 0x0C#8 (.var 1), .sw 0x10#8 (.lit 0#32), .sw 0x14#8 (.lit 7#32), .sw 0x00#8 (.lit 2#32)] := by
  decide
theorem test_withFetchWord : step (State.reset.withFetchWord 32 1) = execHashSingle State.reset ∧
    step (State.reset.withFetchWord 8 0x0C) = execLwLen State.reset ∧
    step (State.reset.withFetchWord 3 4) = execStepFinal { State.reset with phase := 0b100#3 } := by
  exact ⟨rfl, rfl, rfl⟩

/-! ## Witnesses: for each obligation with hypotheses, a state and operands that meet them together, at boundary values -/

/-- The machine after reset with these moves to come. -/
def withTurns (ts : List Turn) : State := { State.reset with turns := ts }

/-- A command just accepted over `len` bytes of the alphabet at 0x2000, with these moves to come. -/
def accepted (len : Word) (mode : Mode) (ts : List Turn) : State :=
  { running Phase.init len 0#32 0#32 ⟨0#32, 0#32, 0#32⟩ mode with turns := ts }

/-- A bus access at the first engine's `P_BASE` plus an offset. -/
def atBase (acc : Access) : BusAccess := ⟨acc.dir, acc.size, Config.pBase 0 + acc.off.setWidth 32, acc.data⟩

theorem witness_EncodingsDecodeBack : ∀ i ∈ [Instr.illegal 0x3#32, .lwReserved 0x20#8, .swReserved 0xFC#8 0#32,
    .phaseUnused 0b111#3, .swCtrl 0xffffffff#32], i.wellFormed = true := by decide
theorem witness_DecodedInstructionsAreWellFormed : decode (.mmio ⟨.read, 4, 0xFC#8, 0#32⟩) = .ok (.lwReserved 0xFC#8) := by
  decide
theorem witness_OnlyAlignedWordAccessesHaveMeaning : ∀ acc ∈ [Access.mk .read 2 0x04#8 0#32, ⟨.write, 4, 0xFD#8, 0#32⟩,
    ⟨.read, 4, 0xFC#8, 0#32⟩, ⟨.write, 4, 0x00#8, 1#32⟩],
    (acc.size ≠ 4 ∨ acc.off.toNat % 4 ≠ 0 ∨ (acc.size = 4 ∧ acc.off.toNat % 4 = 0)) := by decide
theorem witness_OnlyAligned_turns (acc : Access) : (withTurns [.access acc]).turns = .access acc :: [] ∧
    (withTurns [.bus (atBase acc)]).turns =
      .bus ⟨acc.dir, acc.size, State.reset.windowBase + acc.off.setWidth 32, acc.data⟩ :: [] := ⟨rfl, rfl⟩
theorem witness_OnlyAligned_below : let b : BusAccess := ⟨.read, 4, Config.pBase 0 - BitVec.ofNat 32 3, 0#32⟩
    (withTurns [.bus b]).turns = .bus b :: [] ∧ 1 ≤ 3 ∧ 3 < b.size ∧ 3 < 2 ^ 32 ∧
      b.addr = (withTurns [.bus b]).windowBase - BitVec.ofNat 32 3 := ⟨rfl, by decide, by decide, by decide, rfl⟩
theorem witness_StepRuns_access : (withTurns [.access ⟨.read, 4, 0x04#8, 0#32⟩]).turns =
    .access ⟨.read, 4, 0x04#8, 0#32⟩ :: [] ∧ decode (.mmio ⟨.read, 4, 0x04#8, 0#32⟩) = .ok .lwStatus := by decide
theorem witness_StepRuns_bus : (atBase ⟨.read, 4, 0x04#8, 0#32⟩).resolve State.reset.windowBase = .ok ⟨.read, 4, 0x04#8, 0#32⟩ := by
  exact resolve_base _ _ _ _ _
theorem witness_StepRuns_command : (withTurns [.command 0x10#32]).turns = .command 0x10#32 :: [] ∧
    decode (.cmd 0x10#32) = .ok (.illegal 0x10#32) := by decide
theorem witness_StepRuns_engine : (accepted 1#32 .dual [.engine]).turns = .engine :: [] ∧
    (accepted 1#32 .dual []).turns = [] ∧ decode (.phase (accepted 1#32 .dual []).phase) = .ok .stepInit := by decide
theorem witness_PlacedTableWordRunsNext : decodeTableWord 3 0b101 = some .stepWb ∧ decodeTableWord 32 0 = some .nop ∧
    decodeTableWord 8 0xFC = some (.lwReserved 0xFC#8) := by decide
theorem witness_IdleEngineMoveChangesNothing : State.reset.phase = 0b000#3 ∧ State.reset.turns = [] ∧
    (withTurns [.engine]).phase = 0b000#3 ∧ (withTurns [.engine]).turns = .engine :: [] := by decide
theorem witness_BusAccessAtBaseIsTheWindowAccess : (withTurns [.bus (atBase ⟨.write, 4, 0xFC#8, 1#32⟩)]).turns =
    .bus ⟨.write, 4, State.reset.windowBase + (0xFC#8).setWidth 32, 1#32⟩ :: [] := rfl
theorem witness_StatusWordHoldsTheFlags : ({ State.reset with done := true } : State).Inv ∧
    ({ State.reset with done := true } : State).statusWord.getLsbD 1 = true := by decide
theorem witness_WindowAccessFollowsTheOffsetTable : (∀ off ∈ [0x00#8, 0x04#8, 0x1C#8, 0x20#8, 0xFC#8], off.toNat % 4 = 0) ∧
    (withTurns [.access ⟨.read, 4, 0xFC#8, 0#32⟩]).turns = .access ⟨.read, 4, 0xFC#8, 0#32⟩ :: [] ∧
    (withTurns [.access ⟨.write, 4, 0x00#8, 0#32⟩]).turns = .access ⟨.write, 4, 0x00#8, 0#32⟩ :: [] := by decide
theorem witness_IdleHashCommandIsAccepted : distinct.phase = 0b000#3 := by decide
theorem witness_HashCommandWhileBusyIsDropped : (accepted 1#32 .single []).phase ≠ 0b000#3 := by decide
theorem witness_CtrlStoreIssuesItsCommand : State.reset.phase = 0b000#3 ∧ (accepted 1#32 .dual []).phase ≠ 0b000#3 ∧
    (3#32 : Word) ≠ 0#32 ∧ (3#32 : Word) ≠ 1#32 ∧ (3#32 : Word) ≠ 2#32 := by decide
/-- A command of the empty input in its WB step, with these moves to come. -/
def finishing (ts : List Turn) : State := { State.reset with phase := Phase.wb, turns := ts }

theorem witness_CommandRacingWriteBackHasBothOutcomes : (1#32 = 1#32 ∨ 1#32 = 2#32) ∧ (2#32 = 1#32 ∨ 2#32 = 2#32) ∧
    (finishing [.command 2#32, .engine]).phase = 0b101#3 ∧
    (finishing [.command 2#32, .engine]).turns = .command 2#32 :: .engine :: [] ∧
    (finishing [.engine, .command 1#32]).turns = .engine :: .command 1#32 :: [] ∧
    (finishing [.engine, .command 1#32]).phase = 0b101#3 ∧ (finishing [.engine, .command 1#32]).spoiled = false := by decide
theorem witness_BlockStepAbsorbsTwelveBytesAndMixes : let s := running Phase.block 13#32 0#32 13#32 ⟨0#32, 0#32, 0#32⟩ .single
    ∃ d : Nat → Byte, 12 < s.rem.toNat ∧
      (∀ j, d j = s.mem.read (s.latch.src + s.k + BitVec.ofNat 32 j).toNat) ∧ d 0 = 0x61#8 := by
  exact ⟨_, by simp [running], fun _ => rfl, by decide⟩
theorem witness_TailStepAbsorbsTheFinalBlock : ∀ n ∈ [1#32, 12#32], let s := running Phase.tail n 0#32 n ⟨0#32, 0#32, 0#32⟩ .dual
    1 ≤ s.rem.toNat ∧ s.rem.toNat ≤ 12 := by simp [running]
theorem witness_TailStep_bytes : let s := running Phase.tail 1#32 0#32 1#32 ⟨0#32, 0#32, 0#32⟩ .dual
    ∃ d : Nat → Byte, (∀ j, d j =
      if j < s.rem.toNat then s.mem.read (s.latch.src + s.k + BitVec.ofNat 32 j).toNat else 0x00#8) ∧ d 0 = 0x61#8 := by
  exact ⟨_, fun _ => rfl, by decide⟩
theorem witness_TailBytesReachTheirAccumulator : ∀ n ∈ [1#32, 4#32, 8#32, 12#32],
    let s := running Phase.tail n 0#32 n ⟨0#32, 0#32, 0#32⟩ .dual
    ∃ p : Nat → Word, (1 ≤ s.rem.toNat ∧ s.rem.toNat ≤ 12) ∧ ∀ j, p j =
      if j < s.rem.toNat then (s.mem.read (s.latch.src + s.k + BitVec.ofNat 32 j).toNat).setWidth 32 <<< (8 * (j % 4))
      else 0#32 := by
  intro n hn
  exact ⟨_, by revert n; simp [running], fun _ => rfl⟩
theorem witness_FinalStepRunsTheAvalanche : (accepted 1#32 .single []).phase = 0b001#3 ∧ (accepted 1#32 .single []).turns = [] ∧
    (accepted 1#32 .single []).latch.len ≠ 0#32 ∧ 2 + 2 = stepCount (accepted 1#32 .single []).latch.len.toNat := by decide
theorem witness_WriteBack : State.reset.spoiled = false ∧ ({ State.reset with spoiled := true } : State).spoiled = true := by
  decide
theorem witness_HostWriteSpoils_accept : ∃ t, exec .hashDual distinct = .next t ∧ distinct.phase = 0b000#3 ∧
    t.phase = 0b001#3 := ⟨_, rfl, rfl, rfl⟩
theorem witness_HostWriteSpoilsOnlyTheRunningWindow : (accepted 13#32 .single [.memWrite 0x200C#32 0#8]).turns =
    .memWrite 0x200C#32 0#8 :: [] ∧ (0x200C#32 : Word) = 0x2000#32 + BitVec.ofNat 32 12 := by decide
theorem witness_UnusedPhasesFaultAndAreNeverReached : ∃ t, (accepted 0#32 .single []).phase.toNat ≤ 5 ∧
    step (accepted 0#32 .single []) = .next t := by exact ⟨_, by decide, rfl⟩
theorem witness_UnusedPhases : ∀ c ∈ [0b110#3, 0b111#3], ({ withTurns [.engine] with phase := c } : State).phase = c ∧
    (withTurns [.engine]).turns = .engine :: [] ∧ State.reset.turns = [] := by decide
theorem witness_MixRunsItsSixRows : ∃ row : Word → Word → Word → Nat → Word × Word,
    ∀ t s u r, row t s u r = ((t - s) ^^^ ((s <<< r) ||| (s >>> (32 - r))), s + u) := ⟨_, fun _ _ _ _ => rfl⟩
theorem witness_FinalRunsItsSevenRows : ∃ row : Word → Word → Nat → Word,
    ∀ t s r, row t s r = (t ^^^ s) - ((s <<< r) ||| (s >>> (32 - r))) := ⟨_, fun _ _ _ => rfl⟩
theorem witness_RotationKeepsTheBits : ∀ k ∈ [1, 31], 1 ≤ k ∧ k ≤ 31 := by decide
theorem witness_QuietCommandComputesTheHash : let s := accepted 13#32 .dual []
    s.phase = 0b001#3 ∧ s.turns = [] ∧ s.spoiled = false ∧ inputBytes s.mem s.latch.src s.latch.len = abc 13 := by decide
theorem witness_AnyInterleavingComputesTheHash :
    let ts := [.engine, .access ⟨.write, 4, 0x0C#8, 9#32⟩, .engine, .command 2#32, .memWrite 0x2001#32 0#8, .engine]
    let s := accepted 1#32 .single (ts ++ [.engine])
    s.phase = 0b001#3 ∧ s.spoiled = false ∧ (s.latch.mode = .single → s.latch.seed2 = 0#32) ∧ s.mem.wf = true ∧
    s.turns = ts ++ .engine :: [] ∧ (∀ u ∈ ts, u.keepsDuty s.windowBase s.latch.src s.latch.len = true) ∧
    engineTurns ts + 1 = stepCount s.latch.len.toNat := by decide
theorem witness_EachWindowByteIsReadOnceInOrder : let s := accepted 0#32 .dual [.engine, .engine]
    s.phase = 0b001#3 ∧ s.turns = [.engine] ++ .engine :: [] ∧
    (∀ u ∈ [Turn.engine], u.keepsDuty s.windowBase s.latch.src s.latch.len = true) ∧
    engineTurns [.engine] + 1 = stepCount s.latch.len.toNat := by decide
theorem witness_CommandIsBusyUntilItsLastStep : ∀ n ∈ [0, 4], let s := accepted 13#32 .dual []
    s.phase = 0b001#3 ∧ s.turns = [] ∧ n < stepCount s.latch.len.toNat := by decide
theorem witness_EmptyInputIsNotMixed : ∀ m ∈ [Mode.single, Mode.dual], let s := accepted 0#32 m []
    s.phase = 0b001#3 ∧ s.turns = [] ∧ s.spoiled = false ∧ s.latch.len = 0#32 ∧
    (s.latch.mode = .single → s.latch.seed2 = 0#32) := by decide
theorem witness_ResultsDependOnlyOnTheInput : let s := accepted 2#32 .dual []
    let s' : State := { s with latch := { s.latch with src := 0xffffffff#32 },
                               mem := Memory.place [] 0xffffffff#32 (abc 2), result0 := 7#32 }
    s'.phase = 0b001#3 ∧ s'.turns = [] ∧ s'.spoiled = false ∧ s'.latch.len = s.latch.len ∧ s'.latch.seed1 = s.latch.seed1 ∧
    s'.latch.seed2 = s.latch.seed2 ∧ s'.latch.mode = s.latch.mode ∧ s'.latch.src ≠ s.latch.src ∧
    (∀ i : Nat, i < s.latch.len.toNat →
      s'.mem.read (s'.latch.src + BitVec.ofNat 32 i).toNat = s.mem.read (s.latch.src + BitVec.ofNat 32 i).toNat) := by
  decide
theorem witness_SingleAndDualShareTheirFirstResult : let s := { distinct with seed2 := 0#32 }
    s.phase = 0b000#3 ∧ s.turns = [] ∧ s.seed2 = 0#32 := by decide
theorem witness_ResultsChangeOnly : (∃ t, step { accepted 0#32 .dual [] with phase := Phase.wb } = .next t) ∧
    (∃ t, step { distinct with turns := [.reset] } = .next t) := ⟨⟨_, rfl⟩, ⟨_, rfl⟩⟩
theorem witness_ErrorStaysUntilAcceptanceOrReset : ∀ u ∈ [Turn.command 1#32, .command 9#32, .engine, .reset],
    let s := { withTurns [u] with err := true, errCode := 2#4 }
    s.err = true ∧ ∃ t, step s = .next t := by
  simp only [List.forall_mem_cons, List.not_mem_nil, false_implies, implies_true, and_true]
  exact ⟨⟨trivial, _, rfl⟩, ⟨trivial, _, rfl⟩, ⟨trivial, _, rfl⟩, ⟨trivial, _, rfl⟩⟩
theorem witness_FlagsChange_done : let s := { accepted 0#32 .dual [] with phase := Phase.wb }
    s.done = false ∧ s.busy = true ∧ ∃ t, step s = .next t ∧ t.done = true ∧ t.busy = false := by
  exact ⟨rfl, rfl, _, rfl, rfl, rfl⟩
theorem witness_FlagsChange_accept : let s := { withTurns [.command 2#32] with done := true }
    s.done = true ∧ s.busy = false ∧
      ∃ t, step s = .next t ∧ t.done = false ∧ t.busy = true ∧ t.latch.mode ≠ s.latch.mode := by
  exact ⟨rfl, rfl, _, rfl, rfl, rfl, by decide⟩
theorem witness_HostLeavesTheRunningCommandAlone : (Instr.swCtrl 2#32).isEngineStep = false ∧
    (accepted 1#32 .single []).phase ≠ 0b000#3 ∧ ∃ t, exec (.swCtrl 2#32) (accepted 1#32 .single []) = .next t := by
  exact ⟨rfl, by decide, _, rfl⟩
theorem witness_OperandRegistersChangeOnlyByTheirStore : (∀ v, Instr.swSrcAddr 9#32 ≠ .swLen v) ∧
    ∃ t, exec (.swSrcAddr 9#32) distinct = .next t := by
  exact ⟨(fun _ h => by cases h), _, rfl⟩
theorem witness_OperandRegisters_step : ∀ off ∈ [0x08#8, 0x0C#8, 0x10#8, 0x14#8],
    let s := { distinct with turns := [.access ⟨.write, 4, off, 9#32⟩] }
    s.nextAccess = some ⟨.write, 4, off, 9#32⟩ ∧ ∃ t, step s = .next t := by
  simp only [List.forall_mem_cons, List.not_mem_nil, false_implies, implies_true, and_true]
  exact ⟨⟨rfl, _, rfl⟩, ⟨rfl, _, rfl⟩, ⟨rfl, _, rfl⟩, ⟨rfl, _, rfl⟩⟩
theorem witness_OperandRegisters_reset : ∃ t, step { distinct with turns := [.reset] } = .next t := ⟨_, rfl⟩
theorem witness_NoInstructionWritesMemory : Instr.stepWb ≠ .stepBlock ∧ Instr.stepWb ≠ .stepTail ∧
    Instr.stepWb.isLoad = false ∧ ∃ t, exec .stepWb distinct = .next t := by
  exact ⟨by decide, by decide, rfl, _, rfl⟩
theorem witness_HostWriteThenReadMemory : Memory.wf [(3, 9#8), (0xffffffff, 7#8)] = true := by decide
theorem witness_ResetClearsEveryVisibleRegister : ({ accepted 13#32 .dual [.reset] with phase := Phase.block } : State).turns =
    .reset :: [] := rfl
theorem witness_StepKeepsTheInvariant : ∀ s ∈ [State.reset, accepted 13#32 .single [],
    running Phase.block 25#32 12#32 13#32 ⟨1#32, 2#32, 3#32⟩ .dual, running Phase.tail 13#32 12#32 1#32 ⟨1#32, 2#32, 3#32⟩ .dual,
    running Phase.final 13#32 13#32 0#32 ⟨1#32, 2#32, 3#32⟩ .dual, running Phase.wb 0#32 0#32 0#32 ⟨1#32, 2#32, 3#32⟩ .single],
    s.Inv := by decide
theorem witness_StepKeeps_next : ∃ t, step (running Phase.tail 13#32 12#32 1#32 ⟨1#32, 2#32, 3#32⟩ .dual) = .next t :=
  ⟨_, rfl⟩
theorem witness_DatapathNeverFaults : Instr.stepWb ∈ [Instr.stepInit, .stepBlock, .stepTail, .stepFinal, .stepWb] ∧
    State.reset.Inv := by decide
/-- A platform of two engines, each under its own number. -/
def twoEngines : Platform := [accepted 1#32 .single [], { distinct with engineNo := 1 }]

theorem witness_EnginesShareOnlyHostMemory : (∃ q, Platform.step (.engine 0) twoEngines = .next q) ∧
    (∃ q, Platform.step (.memWrite 0x2000#32 9#8) twoEngines = .next q) ∧
    twoEngines[1]? = some { distinct with engineNo := 1 } ∧ twoEngines.mover (.engine 0) ≠ some 1 := by
  exact ⟨⟨_, rfl⟩, ⟨_, rfl⟩, rfl, by decide⟩
theorem witness_BusAccessMovesTheEngineOfItsWindow : let p : Platform := [distinct]
    p[0]? = some distinct ∧ atBase ⟨.read, 4, 0xFC#8, 0#32⟩ = ⟨.read, 4, distinct.windowBase + (0xFC#8).setWidth 32, 0#32⟩ ∧
    (∀ j e', p[j]? = some e' → j ≠ 0 → e'.windowReached (atBase ⟨.read, 4, 0xFC#8, 0#32⟩) = false) ∧
    (0xFC#8).toNat % 4 = 0 ∧ (0xFD#8).toNat % 4 ≠ 0 := by
  refine ⟨rfl, rfl, fun j e' h hj => ?_, by decide, by decide⟩
  obtain ⟨i, rfl⟩ := Nat.exists_eq_succ_of_ne_zero hj
  simp at h
theorem witness_EnginesSeeOneHostMemory : let p : Platform := [distinct, { distinct with engineNo := 1 }]
    (∃ q, Platform.step (.memWrite 0x2000#32 9#8) p = .next q) ∧ (∃ q, Platform.step (.reset 1) p = .next q) ∧
    (∀ e ∈ p, ∀ e' ∈ p, e.mem = e'.mem) := by
  exact ⟨⟨_, rfl⟩, ⟨_, rfl⟩, by decide⟩
theorem witness_PollLeavesExactlyWhenDone :
    let h : HostProg := ⟨hash1Lines 0 (.lit 0x1000#32) (.lit 30#32) (some (.lit 0#32)) 0 1, 4, []⟩
    h.ops[h.line]? = (poll h.line 0)[0]? ∧ h.ops[h.line + 1]? = (poll h.line 0)[1]? := by decide

end Sys2Proof.Tests
end

section
/-! What an instruction leaves alone outside the block: host memory, the trace of the read port and the answers
(spec/10_state.md R36, spec/20_memory.md R51), and that a write of host memory can be undone (spec/00_scope.md R14). -/

namespace Sys2Proof.Machine

/-- No state update that `exec` is made of touches host memory: only `State.hostStore`, a move of the host, does. -/
theorem exec_mem {i : Instr} {s t : State} (h : exec i s = .next t) : t.mem = s.mem := by
  rcases exec_cases h with rfl | ⟨v, rfl⟩ | ⟨v, rfl, -⟩ | ⟨v, rfl, -⟩ | ⟨v, rfl, -⟩ | ⟨v, rfl, -⟩ | rfl | ⟨-, rfl⟩ |
    ⟨m, -, rfl⟩ | ⟨-, rfl⟩ | ⟨-, rfl⟩ | ⟨-, rfl⟩ | ⟨-, rfl⟩ | ⟨-, rfl⟩ <;> rfl

/-- `State.drivePort` is in the meanings of BLOCK and TAIL only. -/
theorem exec_reads_of_not_absorb {i : Instr} {s t : State} (h : exec i s = .next t) (hb : i ≠ .stepBlock)
    (ht : i ≠ .stepTail) : t.reads = s.reads := by
  rcases exec_cases h with rfl | ⟨v, rfl⟩ | ⟨v, rfl, -⟩ | ⟨v, rfl, -⟩ | ⟨v, rfl, -⟩ | ⟨v, rfl, -⟩ | rfl | ⟨-, rfl⟩ |
    ⟨m, -, rfl⟩ | ⟨-, rfl⟩ | ⟨hi, -⟩ | ⟨hi, -⟩ | ⟨-, rfl⟩ | ⟨-, rfl⟩
  exacts [rfl, rfl, rfl, rfl, rfl, rfl, rfl, rfl, rfl, rfl, absurd hi hb, absurd hi ht, rfl, rfl]

theorem issueHash_answers {m : Mode} {s t : State} (h : issueHash m s = .next t) : t.answers = s.answers := by
  rcases issueHash_cases m s with ⟨-, e⟩ | ⟨-, e⟩ <;> obtain rfl := Outcome.next_inj.mp (e.symm.trans h) <;> rfl

theorem presentCommand_answers {w : Word} {s t : State} (h : presentCommand w s = .next t) :
    t.answers = s.answers := by
  rcases presentCommand_cases w s with e | e | ⟨-, e⟩ | ⟨m, -, e⟩ <;>
    obtain rfl := Outcome.next_inj.mp (e.symm.trans h) <;> rfl

/-- Outside the loads no meaning holds a `State.answer`. -/
theorem exec_answers_of_not_load {i : Instr} {s t : State} (h : exec i s = .next t) (hi : i.isLoad = false) :
    t.answers = s.answers := by
  cases i with
  | hashSingle | hashDual => exact issueHash_answers h
  | swCtrl w => exact presentCommand_answers h
  | phaseUnused code => cases h
  | lwCtrl | lwStatus | lwSrcAddr | lwLen | lwSeed1 | lwSeed2 | lwResult0 | lwResult1 | lwReserved off => cases hi
  | _ =>
    obtain rfl := Outcome.next_inj.mp h
    rfl

/-- Settles O47: host memory is one list that every instruction keeps, so each byte of it reads as before. -/
theorem noInstructionWritesMemory : Obligations.NoInstructionWritesMemory := by
  intro i s t h
  exact ⟨fun a => by rw [exec_mem h], exec_reads_of_not_absorb h, exec_answers_of_not_load h⟩

/-- A write is undone by writing the old byte back: both memories are canonical and read alike. -/
theorem Memory.write_write_read {m : Memory} (h : m.wf = true) (addr : Addr) (v : Byte) :
    (m.write addr.toNat v).write addr.toNat (m.read addr.toNat) = m := by
  have hv : (m.write addr.toNat v).wf = true := Memory.wf_write h addr v
  refine Memory.ext_read (Memory.wf_write hv addr _) h fun a => ?_
  rw [Memory.read_write hv, Memory.read_write h]
  split
  case isTrue ha => rw [ha]
  case isFalse => rfl

/-- Settles O48, from the laws of a write and `Memory.write_write_read`. -/
theorem hostWriteThenReadMemory : Obligations.HostWriteThenReadMemory := by
  intro m addr v h
  refine ⟨Memory.wf_write h addr v, fun a => ?_, Memory.write_write_read h addr v⟩
  simp only [Memory.read_write h, eq_comm]

end Sys2Proof.Machine
end

section
/-! What a move can do, in the terms the invariant and the frame statements share: the fields a host instruction writes
(spec/20_memory.md R56), and the phase an INIT or a BLOCK step leads to (spec/41_absorb_sequence.md R132, R134). -/

namespace Sys2Proof.Machine

/-- The state a move starts from differs from `s` at most in the moves to come, which no register shows. -/
theorem eq_withTurns {s s0 : State} (h : s0 = s ∨ s0 = s.popTurn) : ∃ ts, s0 = { s with turns := ts } := by
  rcases h with rfl | rfl
  · exact ⟨s0.turns, rfl⟩
  · exact ⟨s.turns.tail, rfl⟩

/-- `s` with every field that a host instruction other than an acceptance can change taken from `t`. -/
def State.withHostFields (s t : State) : State :=
  { s with srcAddr := t.srcAddr, len := t.len, seed1 := t.seed1, seed2 := t.seed2, err := t.err, errCode := t.errCode,
           answers := t.answers }

/-- A host instruction is an acceptance, or it writes host fields only, and then it keeps the error flags or sets them as a
command error does. -/
theorem execHost_fields {i : Instr} {s t : State} (hi : i.isEngineStep = false) (h : exec i s = .next t) :
    (t = s.withHostFields t ∧
      ((t.err = s.err ∧ t.errCode = s.errCode) ∨ (t.err = true ∧ (t.errCode = 1#4 ∨ t.errCode = 2#4)))) ∨
    ∃ m, s.phase = 0#3 ∧ t = s.accept m := by
  rcases execHost_cases hi h with rfl | ⟨v, rfl⟩ | ⟨v, rfl⟩ | ⟨v, rfl⟩ | ⟨v, rfl⟩ | ⟨v, rfl⟩ | rfl | ⟨-, rfl⟩ | hacc
  iterate 6 exact .inl ⟨rfl, .inl ⟨rfl, rfl⟩⟩
  · exact .inl ⟨rfl, .inr ⟨rfl, .inl rfl⟩⟩
  · exact .inl ⟨rfl, .inr ⟨rfl, .inr rfl⟩⟩
  · exact .inr hacc

/-- The phase after INIT, and what the length then is (R132). -/
theorem initNext_cases (len : Word) :
    (initNext len = 5#3 ∧ len.toNat = 0) ∨ (initNext len = 2#3 ∧ 12 < len.toNat) ∨
    (initNext len = 3#3 ∧ 1 ≤ len.toNat ∧ len.toNat ≤ 12) := by
  unfold initNext
  split
  · next h => exact .inl ⟨rfl, by simp [h]⟩
  · next h =>
    have hpos : len.toNat ≠ 0 := fun h0 => h (BitVec.eq_of_toNat_eq h0)
    split <;> simp <;> omega

/-- The phase after BLOCK, and what REM then is (R134). -/
theorem blockNext_cases (rem : Word) :
    (blockNext rem = 2#3 ∧ 12 < rem.toNat) ∨ (blockNext rem = 3#3 ∧ rem.toNat ≤ 12) := by
  unfold blockNext
  split <;> simp <;> omega

end Sys2Proof.Machine
end

section
/-! The machine's invariant `State.Inv` holds at reset and every step keeps it (spec/10_state.md R30, R33, R37,
spec/60_exceptions.md R203). One lemma per kind of move; `step_cases` puts them together. -/

namespace Sys2Proof.Machine

theorem runInv_of_inv {s : State} (hs : s.Inv) : s.RunInv := hs.2.1

/-- Outside the phases BLOCK to WB the run invariants ask for nothing. -/
theorem runInv_of_idle_or_init {s : State} (h : s.phase = 0#3 ∨ s.phase = 1#3) : s.RunInv := by
  rcases h with h | h <;> simp [State.RunInv, h]

/-! ### The host's moves -/

theorem inv_withHostFields {s t : State} (hs : s.Inv) (ht : t = s.withHostFields t)
    (hf : (t.err = s.err ∧ t.errCode = s.errCode) ∨ (t.err = true ∧ (t.errCode = 1#4 ∨ t.errCode = 2#4))) : t.Inv := by
  obtain ⟨hphase, hrun, ⟨hcode, herr, hdone⟩, hseed, hmem⟩ := hs
  have hflags : (t.errCode = 0#4 ∨ t.errCode = 1#4 ∨ t.errCode = 2#4) ∧ (t.err = true ↔ t.errCode ≠ 0#4) := by
    rcases hf with ⟨he, hc⟩ | ⟨he, hc⟩
    · rw [he, hc]
      exact ⟨hcode, herr⟩
    · rcases hc with hc | hc <;> simp [he, hc]
  rw [ht]
  exact ⟨hphase, hrun, ⟨hflags.1, hflags.2, hdone⟩, hseed, hmem⟩

theorem inv_accept {s : State} (hs : s.Inv) (m : Mode) : (s.accept m).Inv := by
  obtain ⟨-, -, -, -, hmem⟩ := hs
  refine ⟨by simp, runInv_of_idle_or_init (.inr rfl), ⟨.inl rfl, by simp, nofun⟩, fun _ hm => ?_, hmem⟩
  subst hm
  rfl

theorem inv_exec_host {i : Instr} {s t : State} (hs : s.Inv) (hi : i.isEngineStep = false) (h : exec i s = .next t) :
    t.Inv := by
  rcases execHost_fields hi h with ⟨ht, hf⟩ | ⟨m, -, rfl⟩
  · exact inv_withHostFields hs ht hf
  · exact inv_accept hs m

theorem inv_hostStore {s : State} (hs : s.Inv) (addr : Addr) (v : Byte) : (s.hostStore addr v).Inv := by
  obtain ⟨hphase, hrun, hflag, hseed, hmem⟩ := hs
  exact ⟨hphase, hrun, hflag, hseed, State.wf_hostStore hmem addr v⟩

/-- Of the state before it, a reset keeps only what `State.Inv` asks of memory. -/
theorem inv_assertReset {s : State} (hmem : s.mem.wf = true) : s.assertReset.Inv :=
  ⟨by simp, runInv_of_idle_or_init (.inl rfl), ⟨.inl rfl, by simp, nofun⟩, fun _ _ => rfl, hmem⟩

/-! ### The engine's steps -/

/-- The step of a running command that goes on keeps the invariant where it leaves flags, latches and memory alone, its next
phase is legal, and R33 holds again. -/
theorem inv_of_running {s t : State} (hs : s.Inv) (hbusy : s.phase ≠ 0#3)
    (hkept : t.done = s.done ∧ t.err = s.err ∧ t.errCode = s.errCode ∧ t.latch = s.latch ∧ t.mem = s.mem)
    (hphase : t.phase.toNat ≤ 5) (hrun : t.RunInv) : t.Inv := by
  obtain ⟨-, -, ⟨hcode, herr, hdone⟩, hseed, hmem⟩ := hs
  obtain ⟨kdone, kerr, kcode, klatch, kmem⟩ := hkept
  have hb : s.busy = true := busy_iff.mpr hbusy
  refine ⟨hphase, hrun, ⟨?_, ?_, fun hd => ?_⟩, fun _ => ?_, ?_⟩
  · rwa [kcode]
  · rwa [kerr, kcode]
  · rw [hdone (kdone.symm.trans hd)] at hb
    cases hb
  · rw [klatch]
    exact hseed hb
  · rwa [kmem]

theorem inv_initialise {s : State} (hs : s.Inv) (hp : s.phase = 1#3) : s.initialise.Inv := by
  refine inv_of_running hs (by simp [hp]) ⟨rfl, rfl, rfl, rfl, rfl⟩ ?_ ?_ <;>
    rcases initNext_cases s.latch.len with ⟨e, hl⟩ | ⟨e, hl⟩ | ⟨e, hl⟩ <;> simp [State.RunInv, e, hl]

/-- BLOCK moves 12 bytes from REM to K. REM was above 12, so neither count wraps, and at least one byte is left. -/
theorem inv_absorbBlock {s : State} (hs : s.Inv) (hp : s.phase = 2#3) :
    (s.absorbBlock.drivePort s.blockAddrs).Inv := by
  obtain ⟨hsum, hmod, hbound, -, -⟩ := runInv_of_inv hs
  have hsum := hsum (by simp [hp])
  have hmod := hmod (by simp [hp])
  have hbound := hbound hp
  have hk : (s.k + 12#32).toNat = s.k.toNat + 12 := by bv_omega
  have hr : (s.rem - 12#32).toNat = s.rem.toNat - 12 := by bv_omega
  refine inv_of_running hs (by simp [hp]) ⟨rfl, rfl, rfl, rfl, rfl⟩ ?_ ?_ <;>
    rcases blockNext_cases (s.rem - 12#32) with ⟨e, hl⟩ | ⟨e, hl⟩ <;> simp [State.RunInv, e, hk, hr] <;> omega

/-- TAIL moves the bytes that are left from REM to K, and there was at least one. -/
theorem inv_absorbTail {s : State} (hs : s.Inv) (hp : s.phase = 3#3) :
    (s.absorbTail.drivePort s.tailAddrs).Inv := by
  obtain ⟨hsum, -, -, hbound, -⟩ := runInv_of_inv hs
  have hsum := hsum (by simp [hp])
  have hbound := hbound hp
  have hk : (s.k + s.rem).toNat = s.latch.len.toNat := by bv_omega
  have hlen : 0 < s.latch.len.toNat := by omega
  exact inv_of_running hs (by simp [hp]) ⟨rfl, rfl, rfl, rfl, rfl⟩ (by simp) (by simp [State.RunInv, hk, hlen])

theorem inv_avalanche {s : State} (hs : s.Inv) (hp : s.phase = 4#3) : s.avalanche.Inv := by
  obtain ⟨hsum, -, -, -, -⟩ := runInv_of_inv hs
  refine inv_of_running hs (by simp [hp]) ⟨rfl, rfl, rfl, rfl, rfl⟩ (by simp) ?_
  simpa [State.RunInv] using hsum (by simp [hp])

/-- WB sets DONE and clears BUSY in one step. -/
theorem inv_writeBack {s : State} (hs : s.Inv) : s.writeBack.Inv := by
  obtain ⟨-, -, ⟨hcode, herr, -⟩, -, hmem⟩ := hs
  exact ⟨by simp, runInv_of_idle_or_init (.inl rfl), ⟨hcode, herr, fun _ => rfl⟩, fun hb => absurd hb (by simp [State.busy]),
    hmem⟩

/-- Settles O52: each kind of move keeps the invariant, and a step is one of these moves. -/
theorem stepKeepsTheInvariant : Obligations.StepKeepsTheInvariant := by
  intro s t hs h
  obtain ⟨s0, hs0, hmove⟩ := step_cases h
  obtain ⟨ts, rfl⟩ := eq_withTurns hs0
  have hs0 : State.Inv { s with turns := ts } := hs
  rcases hmove with ⟨-, rfl⟩ | ⟨hp, rfl⟩ | ⟨hp, rfl⟩ | ⟨hp, rfl⟩ | ⟨hp, rfl⟩ | ⟨-, rfl⟩ | ⟨i, hi, hx⟩ | ⟨a, v, -, -, rfl⟩ |
    ⟨-, -, rfl⟩
  · exact hs0
  · exact inv_initialise hs0 hp
  · exact inv_absorbBlock hs0 hp
  · exact inv_absorbTail hs0 hp
  · exact inv_avalanche hs0 hp
  · exact inv_writeBack hs0
  · exact inv_exec_host hs0 hi hx
  · exact inv_hostStore hs0 a v
  · obtain ⟨-, -, -, -, hmem⟩ := hs0
    exact inv_assertReset hmem

/-- Settles O51: the reset state is what asserting reset makes of itself. -/
theorem resetMeetsTheInvariant : Obligations.ResetMeetsTheInvariant :=
  inv_assertReset (s := State.reset) State.wf_reset

/-- Settles O50: each row is the table's value, and STATUS is put together from five flags that are 0. -/
theorem resetStateIsAsTheTableSays : Obligations.ResetStateIsAsTheTableSays :=
  ⟨rfl, by decide, rfl, rfl, rfl, rfl, rfl, rfl, rfl⟩

end Sys2Proof.Machine
end

section
/-! What a step can change of the results, the flags and the operand registers (spec/10_state.md R24 to R30, R35), what a host
instruction leaves alone while a command runs (spec/70_reset_and_hazards.md R237), and that a bus address at `P_BASE` plus an
offset is that offset of the window (spec/20_memory.md R57). -/

namespace Sys2Proof.Machine

/-! ### The window by bus address -/

theorem runTurn_bus_of_resolve {b : BusAccess} {acc : Access} {s : State} (h : b.resolve s.windowBase = .ok acc) :
    runTurn (.bus b) s = runTurn (.access acc) s := by
  simp only [runTurn, h]

/-- Settles O9: the address resolves to the access, and both moves start from `s` less its first turn. -/
theorem busAccessAtBaseIsTheWindowAccess : Obligations.BusAccessAtBaseIsTheWindowAccess := by
  intro s acc rest h
  rw [step_cons h, popTurn_cons h,
    runTurn_bus_of_resolve (s := { s with turns := rest }) (resolve_base acc.dir acc.size acc.off acc.data s.windowBase)]
  rfl

/-! ### Results and flags -/

/-- What the host can see of commands, the error flags aside, is as before. -/
structure State.SameView (s t : State) : Prop where
  result0 : t.result0 = s.result0
  result1 : t.result1 = s.result1
  done    : t.done = s.done
  mode    : t.latch.mode = s.latch.mode
  busy    : t.busy = s.busy

/-- From a running state, the step of a command that goes on: results, DONE and the mode stay, and so does BUSY. -/
theorem State.SameView.of_running {s t : State} (hs : s.phase ≠ 0#3) (ht : t.phase ≠ 0#3)
    (hkept : t.result0 = s.result0 ∧ t.result1 = s.result1 ∧ t.done = s.done ∧ t.latch.mode = s.latch.mode) :
    s.SameView t := by
  obtain ⟨h0, h1, hd, hm⟩ := hkept
  exact ⟨h0, h1, hd, hm, (busy_iff.mpr ht).trans (busy_iff.mpr hs).symm⟩

/-- Only WB, an acceptance and reset change the results, DONE, MODE or BUSY. -/
theorem step_view {s t : State} (h : step s = .next t) :
    s.SameView t ∨ ∃ ts, let s0 := { s with turns := ts }
      (s.phase = 5#3 ∧ t = s0.writeBack) ∨ (∃ m, s.phase = 0#3 ∧ t = s0.accept m) ∨
      ∃ rest, s.turns = .reset :: rest ∧ t = s0.assertReset := by
  obtain ⟨s0, hs0, hmove⟩ := step_cases h
  obtain ⟨ts, rfl⟩ := eq_withTurns hs0
  rcases hmove with ⟨-, rfl⟩ | ⟨hp, rfl⟩ | ⟨hp, rfl⟩ | ⟨hp, rfl⟩ | ⟨hp, rfl⟩ | hwb | ⟨i, hi, hx⟩ | ⟨a, v, -, -, rfl⟩ | hreset
  · exact .inl ⟨rfl, rfl, rfl, rfl, rfl⟩
  · refine .inl (.of_running (by simp [hp]) ?_ ⟨rfl, rfl, rfl, rfl⟩)
    rcases initNext_cases s.latch.len with ⟨e, -⟩ | ⟨e, -⟩ | ⟨e, -⟩ <;> simp [e]
  · refine .inl (.of_running (by simp [hp]) ?_ ⟨rfl, rfl, rfl, rfl⟩)
    rcases blockNext_cases (s.rem - 12#32) with ⟨e, -⟩ | ⟨e, -⟩ <;> simp [e]
  · exact .inl (.of_running (by simp [hp]) (by simp) ⟨rfl, rfl, rfl, rfl⟩)
  · exact .inl (.of_running (by simp [hp]) (by simp) ⟨rfl, rfl, rfl, rfl⟩)
  · exact .inr ⟨ts, .inl hwb⟩
  · rcases execHost_fields hi hx with ⟨ht, -⟩ | hacc
    · rw [ht]
      exact .inl ⟨rfl, rfl, rfl, rfl, rfl⟩
    · exact .inr ⟨ts, .inr (.inl hacc)⟩
  · exact .inl ⟨rfl, rfl, rfl, rfl, rfl⟩
  · exact .inr ⟨ts, .inr (.inr hreset)⟩

/-- Settles O42: of the three moves `step_view` names, an acceptance leaves the results alone. -/
theorem resultsChangeOnlyAtWriteBackOrReset : Obligations.ResultsChangeOnlyAtWriteBackOrReset := by
  intro s t h
  rcases step_view h with hv | ⟨ts, ⟨hp, rfl⟩ | ⟨m, -, rfl⟩ | ⟨rest, hr, rfl⟩⟩
  · exact .inl ⟨hv.result0, hv.result1⟩
  · exact .inr (.inl ⟨hp, rfl, rfl⟩)
  · exact .inl ⟨rfl, rfl⟩
  · exact .inr (.inr ⟨rest, hr, rfl, rfl⟩)

/-- Settles O44: each flag's change is looked up at the three moves `step_view` names. -/
theorem flagsChangeOnlyWhereListed : Obligations.FlagsChangeOnlyWhereListed := by
  intro s t h
  rcases step_view h with hv | ⟨ts, ⟨hp, rfl⟩ | ⟨m, hp, rfl⟩ | ⟨rest, hr, rfl⟩⟩
  · simp +contextual [hv.done, hv.mode, hv.busy]
  · simp [hp, State.busy]
  · simp [hp, State.busy]
  · simp [hr, State.busy]

/-! ### A running command -/

/-- Settles O45: with a command running there is no acceptance, and host fields are all that is left to change. -/
theorem hostLeavesTheRunningCommandAlone : Obligations.HostLeavesTheRunningCommandAlone := by
  intro i s t hi hp h
  rcases execHost_fields hi h with ⟨ht, -⟩ | ⟨m, hidle, -⟩
  · exact ht
  · exact absurd hidle hp

/-! ### The operand registers -/

/-- The four operand registers are as before. -/
structure State.SameOperands (s t : State) : Prop where
  srcAddr : t.srcAddr = s.srcAddr
  len     : t.len = s.len
  seed1   : t.seed1 = s.seed1
  seed2   : t.seed2 = s.seed2

theorem State.SameOperands.of_popTurn {s t : State} (h : s.popTurn.SameOperands t) : s.SameOperands t :=
  ⟨h.srcAddr, h.len, h.seed1, h.seed2⟩

/-- An instruction keeps the operand registers, or it is the store to one of them and writes that one only. -/
theorem exec_operands {i : Instr} {s t : State} (h : exec i s = .next t) :
    s.SameOperands t ∨ (∃ v, i = .swSrcAddr v ∧ t = s.setSrcAddr v) ∨ (∃ v, i = .swLen v ∧ t = s.setLen v) ∨
    (∃ v, i = .swSeed1 v ∧ t = s.setSeed1 v) ∨ (∃ v, i = .swSeed2 v ∧ t = s.setSeed2 v) := by
  rcases exec_cases h with rfl | ⟨v, rfl⟩ | ⟨v, ht, hi⟩ | ⟨v, ht, hi⟩ | ⟨v, ht, hi⟩ | ⟨v, ht, hi⟩ | rfl | ⟨-, rfl⟩ |
    ⟨m, -, rfl⟩ | ⟨-, rfl⟩ | ⟨-, rfl⟩ | ⟨-, rfl⟩ | ⟨-, rfl⟩ | ⟨-, rfl⟩
  iterate 2 exact .inl ⟨rfl, rfl, rfl, rfl⟩
  · exact .inr (.inl ⟨v, hi, ht⟩)
  · exact .inr (.inr (.inl ⟨v, hi, ht⟩))
  · exact .inr (.inr (.inr (.inl ⟨v, hi, ht⟩)))
  · exact .inr (.inr (.inr (.inr ⟨v, hi, ht⟩)))
  all_goals exact .inl ⟨rfl, rfl, rfl, rfl⟩

/-- Whatever is no store keeps the operand registers. -/
theorem exec_operands_of_not_store {i : Instr} {s t : State} (hi : i.isStore = false) (h : exec i s = .next t) :
    s.SameOperands t := by
  rcases exec_operands h with hsame | ⟨v, rfl, -⟩ | ⟨v, rfl, -⟩ | ⟨v, rfl, -⟩ | ⟨v, rfl, -⟩
  · exact hsame
  all_goals cases hi

theorem engineStep_not_store {i : Instr} (h : i.isEngineStep = true) : i.isStore = false := by
  cases i <;> cases h <;> rfl

theorem load_not_store {i : Instr} (h : i.isLoad = true) : i.isStore = false := by
  cases i <;> cases h <;> rfl

theorem decodeCommandWord_not_store (w : Word) : (decodeCommandWord w).isStore = false := by
  unfold decodeCommandWord
  split <;> rfl

/-- The engine has no way to the operand registers. -/
theorem engineMove_operands {s t : State} (h : engineMove s = .next t) : s.SameOperands t := by
  rcases engineMove_next h with ⟨-, rfl⟩ | ⟨-, i, hi, hx⟩
  · exact ⟨rfl, rfl, rfl, rfl⟩
  · exact exec_operands_of_not_store (engineStep_not_store (decodePhase_isEngineStep hi)) hx

theorem encode_decodeStore (off : BitVec 8) (v : Word) : encode (decodeStore off v) = encodeStore off v := by
  unfold decodeStore
  repeat' split
  all_goals simp [encode, *]

/-- A store is decoded from one access only. -/
theorem encode_of_decodeAccess_store {acc : Access} {i : Instr} (h : decodeAccess acc = .ok i)
    (hi : i.isStore = true) : encode i = .mmio acc := by
  obtain ⟨hdef, ⟨-, rfl⟩ | ⟨hdir, rfl⟩⟩ := decodeAccess_ok h
  · exact absurd hi (by simp [load_not_store (decodeLoad_isLoad acc.off)])
  · simp only [Access.defined, Bool.and_eq_true, beq_iff_eq] at hdef
    obtain ⟨hsize, -⟩ := hdef
    rw [encode_decodeStore, encodeStore, ← hdir, ← hsize]

/-- A step keeps the operand registers, runs the instruction of the access it makes, or is a reset. -/
theorem step_operands {s t : State} (h : step s = .next t) :
    s.SameOperands t ∨
    (∃ acc i, s.nextAccess = some acc ∧ decodeAccess acc = .ok i ∧ exec i s.popTurn = .next t) ∨
    ∃ rest, s.turns = .reset :: rest ∧ t = s.popTurn.assertReset := by
  rcases step_next h with ⟨-, he⟩ | ⟨u, rest, hu, he⟩
  · exact .inl (engineMove_operands he)
  · rcases runTurn_next he with ⟨-, he⟩ | ⟨acc, i, hacc, hi, hx⟩ | ⟨w, -, hx⟩ | ⟨a, v, -, rfl⟩ | ⟨rfl, ht⟩
    · exact .inl (engineMove_operands he).of_popTurn
    · refine .inr (.inl ⟨acc, i, ?_, hi, hx⟩)
      rcases hacc with rfl | ⟨b, rfl, hb⟩
      · simp [State.nextAccess, hu]
      · simp only [State.popTurn_windowBase] at hb
        simp [State.nextAccess, hu, hb, Except.toOption]
    · exact .inl (exec_operands_of_not_store (decodeCommandWord_not_store w) hx).of_popTurn
    · exact .inl ⟨rfl, rfl, rfl, rfl⟩
    · exact .inr (.inr ⟨rest, hu, ht⟩)

/-- Settles O46: the instruction that changes an operand register is its store, and the step that runs one makes the access
the store is encoded as. -/
theorem operandRegistersChangeOnlyByTheirStore : Obligations.OperandRegistersChangeOnlyByTheirStore := by
  refine ⟨fun i s t h => ?_, fun s t h => ?_⟩
  · rcases exec_operands h with ⟨h0, h1, h2, h3⟩ | ⟨v, rfl, rfl⟩ | ⟨v, rfl, rfl⟩ | ⟨v, rfl, rfl⟩ | ⟨v, rfl, rfl⟩
    · exact ⟨fun _ => h0, fun _ => h1, fun _ => h2, fun _ => h3⟩
    all_goals simp
  · rcases step_operands h with ⟨h0, h1, h2, h3⟩ | ⟨acc, i, hacc, hi, hx⟩ | ⟨rest, hr, rfl⟩
    · exact .inr ⟨.inl h0, .inl h1, .inl h2, .inl h3⟩
    · rw [hacc]
      rcases exec_operands hx with ⟨h0, h1, h2, h3⟩ | ⟨v, rfl, rfl⟩ | ⟨v, rfl, rfl⟩ | ⟨v, rfl, rfl⟩ | ⟨v, rfl, rfl⟩
      · exact .inr ⟨.inl h0, .inl h1, .inl h2, .inl h3⟩
      all_goals
        obtain rfl := Fetched.mmio.inj (encode_of_decodeAccess_store hi rfl)
        simp
    · exact .inl ⟨rest, hr, rfl, rfl, rfl, rfl⟩

end Sys2Proof.Machine
end

section
/-! The accesses of the register window that have a meaning (spec/20_memory.md R53, R57). -/

namespace Sys2Proof.Machine

theorem Access.defined_iff {acc : Access} : acc.defined = true ↔ acc.size = 4 ∧ acc.off.toNat % 4 = 0 := by
  simp [Access.defined]

/-- An aligned 32-bit access runs an instruction of the host. -/
theorem runFetched_of_defined {acc : Access} (h : acc.defined = true) :
    ∃ i, i.isEngineStep = false ∧ ∀ s, runFetched (.mmio acc) s = exec i s := by
  obtain ⟨i, hi⟩ := decodeAccess_defined h
  exact ⟨i, access_notEngine hi, fun s => by simp only [runFetched, decode, hi]⟩

theorem runFetched_of_not_defined {acc : Access} (h : ¬ acc.defined = true) (s : State) :
    runFetched (.mmio acc) s = .refused .windowAccess := by
  simp only [runFetched, decode, decodeAccess_error (Bool.eq_false_iff.mpr h), refusalOf]

/-- An access that starts `d` bytes below the window and is more than `d` bytes wide is refused. Only where those `d` bytes
take it round the address space does it start in the window, and then it is wider than a word. -/
theorem runTurn_bus_from_below {b : BusAccess} {s : State} {d : Nat} (hd : 1 ≤ d) (hsize : d < b.size) (hw : d < 2 ^ 32)
    (haddr : b.addr = s.windowBase - BitVec.ofNat 32 d) : runTurn (.bus b) s = .refused .windowAccess := by
  have hbelow : (s.windowBase - b.addr).toNat = d := by bv_omega
  have hoff : (b.addr - s.windowBase).toNat = 2 ^ 32 - d := by bv_omega
  simp only [runTurn, BusAccess.resolve]
  by_cases hin : (b.addr - s.windowBase).toNat < 256
  · rw [if_pos hin]
    refine runFetched_of_not_defined (fun h => ?_) s
    obtain ⟨hfour, -⟩ : b.size = 4 ∧ _ := Access.defined_iff.mp h
    omega
  · rw [if_neg hin, if_pos (hbelow ▸ hsize)]

/-- A window access by bus address steps as the one by offset does, which runs the access. -/
theorem step_window_access {s : State} {acc : Access} {rest : List Turn}
    (h : s.turns = .access acc :: rest ∨
      s.turns = .bus ⟨acc.dir, acc.size, s.windowBase + acc.off.setWidth 32, acc.data⟩ :: rest) :
    step s = runFetched (.mmio acc) { s with turns := rest } := by
  rcases h with h | h
  · rw [step_cons h, popTurn_cons h]
    rfl
  · rw [busAccessAtBaseIsTheWindowAccess s acc rest h]
    rfl

/-- Settles O5: only whether the access is defined matters, since every instruction of the host answers a next state. -/
theorem onlyAlignedWordAccessesHaveMeaning : Obligations.OnlyAlignedWordAccessesHaveMeaning := by
  refine ⟨fun s b rest d h hd hsize hw haddr => ?_, fun s acc rest h => ⟨fun hbad => ?_, fun hsize hoff => ?_⟩⟩
  · rw [step_cons h]
    exact runTurn_bus_from_below hd hsize hw haddr
  · rw [step_window_access h]
    refine runFetched_of_not_defined (fun hdef => ?_) _
    obtain ⟨hsize, hoff⟩ := Access.defined_iff.mp hdef
    exact hbad.elim (absurd hsize) (absurd hoff)
  · rw [step_window_access h]
    obtain ⟨i, hi, hrun⟩ := runFetched_of_defined (Access.defined_iff.mpr ⟨hsize, hoff⟩)
    rw [hrun]
    exact exec_host_next hi _

end Sys2Proof.Machine
end

section
/-! A running command under any interleaving with moves of the host that keep its duties (spec/60_exceptions.md R215,
spec/70_reset_and_hazards.md R234, R237): what such a move leaves alone, and the induction over the moves. -/

namespace Sys2Proof.Machine

/-- What a move of the host that keeps its duties makes of the state `s` of a running command: host fields are written, or a
byte of memory outside the input window is. -/
def State.HostMoved (s t : State) : Prop :=
  t = s.withHostFields t ∨
  ∃ addr v, inWindow s.latch.src s.latch.len addr = false ∧ t = { s with mem := s.mem.write addr.toNat v }

/-- The operands of a command and the list of moves are the same, and so is the register window. -/
structure State.SameSetting (s t : State) : Prop where
  latch  : t.latch = s.latch
  window : t.windowBase = s.windowBase
  turns  : t.turns = s.turns

theorem State.HostMoved.sameSetting {s t : State} (h : s.HostMoved t) : s.SameSetting t := by
  rcases h with h | ⟨addr, v, -, h⟩ <;> rw [h] <;> exact ⟨rfl, rfl, rfl⟩

theorem engineMove_sameSetting {s t : State} (h : engineMove s = .next t) : s.SameSetting t := by
  rcases engineMove_next h with ⟨-, rfl⟩ | ⟨-, i, hi, hx⟩
  · exact ⟨rfl, rfl, rfl⟩
  · rcases execPhase_next hi s t hx with ⟨-, rfl⟩ | ⟨-, rfl⟩ | ⟨-, rfl⟩ | ⟨-, rfl⟩ | ⟨-, rfl⟩ <;> exact ⟨rfl, rfl, rfl⟩

theorem engineMove_of_decodePhase {s : State} {i : Instr} (h : decodePhase s.phase = .ok i) : engineMove s = exec i s := by
  have hbusy : s.busy = true := busy_iff.mpr fun hidle => by rw [hidle] at h; cases h
  simp only [engineMove, hbusy, if_true, runFetched, decode, h]

/-- An instruction of the host answers, while a command runs, a state that the host moved. -/
theorem exec_host_running {i : Instr} {s : State} (hi : i.isEngineStep = false) (hp : s.phase ≠ 0#3) :
    ∃ t, exec i s = .next t ∧ s.HostMoved t := by
  obtain ⟨t, ht⟩ := exec_host_next hi s
  exact ⟨t, ht, .inl (hostLeavesTheRunningCommandAlone i s t hi hp ht)⟩

theorem hostStore_outside {s : State} {addr : Addr} (h : inWindow s.latch.src s.latch.len addr = false) (v : Byte) :
    s.hostStore addr v = { s with mem := s.mem.write addr.toNat v } := by
  simp [State.hostStore, h]

/-- While a command runs, a move of the host that keeps its duties answers a state that the host moved. -/
theorem runTurn_keepsDuty {u : Turn} {s : State} (hp : s.phase ≠ 0#3) (hhost : u.isEngine = false)
    (hu : u.keepsDuty s.windowBase s.latch.src s.latch.len = true) : ∃ t, runTurn u s = .next t ∧ s.HostMoved t := by
  have access : ∀ acc : Access, acc.defined = true → ∃ t, runFetched (.mmio acc) s = .next t ∧ s.HostMoved t := by
    intro acc hacc
    obtain ⟨i, hi, hrun⟩ := runFetched_of_defined hacc
    rw [hrun]
    exact exec_host_running hi hp
  cases u with
  | engine => cases hhost
  | access acc => exact access acc hu
  | command w => exact exec_host_running (decodeCommandWord_notEngineStep w) hp
  | bus b =>
    simp only [Turn.keepsDuty] at hu
    split at hu
    case h_1 acc hacc =>
      rw [runTurn_bus_of_resolve hacc]
      exact access acc hu
    case h_2 => cases hu
  | memWrite addr v =>
    have hout : inWindow s.latch.src s.latch.len addr = false := by simpa [Turn.keepsDuty] using hu
    exact ⟨_, rfl, .inr ⟨addr, v, hout, hostStore_outside hout v⟩⟩
  | reset => cases hu

/-- `Q n s` follows a command of which `n` engine steps are left: it holds on through the host's moves while one is left, and
each engine step leads from `n + 1` to `n`. -/
structure FollowsCommand (Q : Nat → State → Prop) : Prop where
  running : ∀ {n s}, Q (n + 1) s → s.phase ≠ 0#3
  pop     : ∀ {n s}, Q n s → Q n s.popTurn
  host    : ∀ {n s t}, Q (n + 1) s → s.HostMoved t → Q (n + 1) t
  engine  : ∀ {n s}, Q (n + 1) s → ∃ t, engineMove s = .next t ∧ Q n t

section
variable {Q : Nat → State → Prop}

theorem FollowsCommand.step_engine (hQ : FollowsCommand Q) {n : Nat} {s : State} {rest : List Turn}
    (hs : s.turns = .engine :: rest) (h : Q (n + 1) s) : ∃ t, step s = .next t ∧ Q n t ∧ s.popTurn.SameSetting t := by
  obtain ⟨t, ht, hQt⟩ := hQ.engine (hQ.pop h)
  exact ⟨t, (step_cons hs).trans ht, hQt, engineMove_sameSetting ht⟩

theorem FollowsCommand.step_host (hQ : FollowsCommand Q) {n : Nat} {s : State} {u : Turn} {rest : List Turn}
    (hs : s.turns = u :: rest) (hu : u.keepsDuty s.windowBase s.latch.src s.latch.len = true)
    (hhost : u.isEngine = false) (h : Q (n + 1) s) :
    ∃ t, step s = .next t ∧ Q (n + 1) t ∧ s.popTurn.SameSetting t := by
  have hpop := hQ.pop h
  obtain ⟨t, ht, hmoved⟩ := runTurn_keepsDuty (s := s.popTurn) (hQ.running hpop) hhost hu
  exact ⟨t, (step_cons hs).trans ht, hQ.host hpop hmoved, hmoved.sameSetting⟩

/-- One of the moves: the engine steps left are one fewer where it is the engine's, and as many where it is the host's. -/
theorem FollowsCommand.step_keepsDuty (hQ : FollowsCommand Q) {s : State} {u : Turn} {ts rest : List Turn}
    (hs : s.turns = u :: rest) (hu : u.keepsDuty s.windowBase s.latch.src s.latch.len = true)
    (h : Q (engineTurns (u :: ts) + 1) s) :
    ∃ t, step s = .next t ∧ Q (engineTurns ts + 1) t ∧ s.popTurn.SameSetting t := by
  cases u with
  | engine => exact hQ.step_engine hs h
  | access | command | bus | memWrite => exact hQ.step_host hs hu rfl h
  | reset => cases hu

/-- After the moves `ts`, which keep the host's duties, and the command's last engine step, no engine step is left. -/
theorem FollowsCommand.run_to_end (hQ : FollowsCommand Q) {ts rest : List Turn} {s : State}
    (hs : s.turns = ts ++ .engine :: rest)
    (hd : ∀ u ∈ ts, u.keepsDuty s.windowBase s.latch.src s.latch.len = true) (h : Q (engineTurns ts + 1) s) :
    ∃ t, State.run (ts.length + 1) s = .next t ∧ t.turns = rest ∧ Q 0 t := by
  induction ts generalizing s with
  | nil =>
    obtain ⟨t, ht, hQt, hset⟩ := hQ.step_engine hs h
    exact ⟨t, (run_one s).trans ht, by simp [hset.turns, hs], hQt⟩
  | cons u ts ih =>
    obtain ⟨hu, hd⟩ := List.forall_mem_cons.mp hd
    obtain ⟨t, ht, hQt, hset⟩ := hQ.step_keepsDuty hs hu h
    rw [List.length_cons, run_succ _ ht]
    refine ih (by simp [hset.turns, hs]) (fun v hv => ?_) hQt
    rw [hset.latch, hset.window]
    exact hd v hv

end

end Sys2Proof.Machine
end

section
/-! The trace of the read port over a command (spec/20_memory.md R51, R52): the addresses already driven and those still to be
driven are together the input window, from acceptance to the end. -/

namespace Sys2Proof.Machine

/-- What a command with these registers has left: the addresses it still reads, in order, and its engine steps (R145). The
bounds on REM are those of R33. -/
inductive ReadsLeft (phase : BitVec 3) (latch : Latches) (k rem : Word) : List Addr → Nat → Prop
  | init (hp : phase = Phase.init) :
    ReadsLeft phase latch k rem (windowAddrs latch.src 0#32 latch.len.toNat) (stepCount latch.len.toNat)
  | absorb (hp : (phase = Phase.block ∧ 12 < rem.toNat) ∨ (phase = Phase.tail ∧ rem.toNat ≤ 12)) :
    ReadsLeft phase latch k rem (windowAddrs latch.src k rem.toNat) (blockCount rem.toNat + 3)
  | final (hp : phase = Phase.final) : ReadsLeft phase latch k rem [] 2
  | wb (hp : phase = Phase.wb) : ReadsLeft phase latch k rem [] 1
  | idle (hp : phase = Phase.idle) : ReadsLeft phase latch k rem [] 0

/-- A command with `n` engine steps left has driven, and will drive, the addresses `all`, in this order. -/
def State.Reads (all : List Addr) (n : Nat) (s : State) : Prop :=
  ∃ todo, ReadsLeft s.phase s.latch s.k s.rem todo n ∧ s.reads ++ todo = all

/-- The window of `m + n` bytes is the first `m` bytes and the `n` bytes after them. -/
theorem windowAddrs_add (src k : Word) (m n : Nat) :
    windowAddrs src k (m + n) = windowAddrs src k m ++ windowAddrs src (k + BitVec.ofNat 32 m) n := by
  simp only [windowAddrs, List.range_add, List.map_append, List.map_map]
  congr 1
  refine List.map_congr_left fun j _ => ?_
  simp only [Function.comp_apply, BitVec.ofNat_add, BitVec.add_assoc]

theorem blockCount_of_le {len : Nat} (h : len ≤ 12) : blockCount len = 0 := if_pos h

/-- A BLOCK step takes one block off an input longer than the final block. -/
theorem blockCount_add_twelve {len : Nat} (h : 0 < len) : blockCount (12 + len) = blockCount len + 1 := by
  unfold blockCount
  split <;> split <;> omega

theorem stepCount_of_pos {len : Nat} (h : 0 < len) : stepCount len = blockCount len + 4 := if_neg (by omega)

theorem stepCount_pos (len : Nat) : 0 < stepCount len := by
  unfold stepCount
  split <;> omega

/-! ### The engine's steps -/

theorem reads_initialise {n : Nat} {s : State} (hn : n + 1 = stepCount s.latch.len.toNat) :
    s.initialise.Reads (s.reads ++ windowAddrs s.latch.src 0#32 s.latch.len.toNat) n := by
  have habsorb (hpos : 0 < s.latch.len.toNat)
      (hp : (initNext s.latch.len = Phase.block ∧ 12 < s.latch.len.toNat) ∨
        (initNext s.latch.len = Phase.tail ∧ s.latch.len.toNat ≤ 12)) :
      s.initialise.Reads (s.reads ++ windowAddrs s.latch.src 0#32 s.latch.len.toNat) n := by
    obtain rfl : n = blockCount s.latch.len.toNat + 3 := by have := stepCount_of_pos hpos; omega
    exact ⟨_, .absorb hp, rfl⟩
  rcases initNext_cases s.latch.len with ⟨e, hl⟩ | ⟨e, hl⟩ | ⟨e, hl, hl'⟩
  · rw [hl] at hn ⊢
    obtain rfl : n = 1 := Nat.succ.inj hn
    exact ⟨_, .wb e, rfl⟩
  · exact habsorb (by omega) (.inl ⟨e, hl⟩)
  · exact habsorb hl (.inr ⟨e, hl'⟩)

theorem reads_absorbBlock {n : Nat} {s : State} (hrem : 12 < s.rem.toNat) (hn : n + 1 = blockCount s.rem.toNat + 3) :
    (s.absorbBlock.drivePort s.blockAddrs).Reads (s.reads ++ windowAddrs s.latch.src s.k s.rem.toNat) n := by
  have hsplit : s.rem.toNat = 12 + (s.rem - 12#32).toNat := by bv_omega
  rw [hsplit, windowAddrs_add, ← List.append_assoc]
  rw [hsplit, blockCount_add_twelve (by omega)] at hn
  obtain rfl : n = blockCount (s.rem - 12#32).toNat + 3 := by omega
  exact ⟨_, .absorb (blockNext_cases (s.rem - 12#32)), rfl⟩

theorem reads_absorbTail {n : Nat} {s : State} (hrem : s.rem.toNat ≤ 12) (hn : n + 1 = blockCount s.rem.toNat + 3) :
    (s.absorbTail.drivePort s.tailAddrs).Reads (s.reads ++ windowAddrs s.latch.src s.k s.rem.toNat) n := by
  have haddrs : s.tailAddrs = windowAddrs s.latch.src s.k s.rem.toNat := by rw [State.tailAddrs, min_eq_left hrem]
  obtain rfl : n = 2 := by rw [blockCount_of_le hrem] at hn; omega
  exact ⟨[], .final rfl, by rw [← haddrs]; simp⟩

/-- The step of each phase drives the next of the addresses that are left. -/
theorem engineMove_reads {all : List Addr} {n : Nat} {s : State} (h : s.Reads all (n + 1)) :
    ∃ t, engineMove s = .next t ∧ t.Reads all n := by
  obtain ⟨todo, hleft, rfl⟩ := h
  have advance {i : Instr} {t : State} (hi : decodePhase s.phase = .ok i) (hx : exec i s = .next t)
      (ht : t.Reads (s.reads ++ todo) n) : ∃ t, engineMove s = .next t ∧ t.Reads (s.reads ++ todo) n :=
    ⟨t, (engineMove_of_decodePhase hi).trans hx, ht⟩
  generalize hn : n + 1 = m at hleft
  cases hleft with
  | init hp => exact advance (by rw [hp]; rfl) rfl (reads_initialise hn)
  | absorb hp =>
    rcases hp with ⟨hp, hrem⟩ | ⟨hp, hrem⟩
    · exact advance (by rw [hp]; rfl) rfl (reads_absorbBlock hrem hn)
    · exact advance (by rw [hp]; rfl) rfl (reads_absorbTail hrem hn)
  | final hp =>
    obtain rfl : n = 1 := Nat.succ.inj hn
    exact advance (t := s.avalanche) (by rw [hp]; rfl) rfl ⟨[], .wb rfl, rfl⟩
  | wb hp =>
    obtain rfl : n = 0 := Nat.succ.inj hn
    exact advance (t := s.writeBack) (by rw [hp]; rfl) rfl ⟨[], .idle rfl, rfl⟩
  | idle => cases hn

/-! ### The command -/

theorem State.Reads.phase_ne_idle {all : List Addr} {n : Nat} {s : State} (h : s.Reads all (n + 1)) :
    s.phase ≠ Phase.idle := by
  intro hp
  obtain ⟨todo, hleft, -⟩ := h
  rw [hp] at hleft
  generalize hn : n + 1 = m at hleft
  cases hleft with
  | absorb hp => simp at hp
  | idle => cases hn
  | _ h => cases h

/-- A finished command has driven all its addresses. -/
theorem State.Reads.reads_eq {all : List Addr} {s : State} (h : s.Reads all 0) : s.reads = all := by
  obtain ⟨todo, hleft, rfl⟩ := h
  generalize hn : 0 = m at hleft
  cases hleft with
  | init => exact absurd hn (stepCount_pos _).ne
  | absorb | final | wb => omega
  | idle => simp

/-- The trace follows a command: the host's moves touch none of the registers it is told by. -/
theorem reads_followsCommand (all : List Addr) : FollowsCommand (State.Reads all) where
  running h := h.phase_ne_idle
  pop h := h
  host h hmoved := by
    rcases hmoved with e | ⟨addr, v, -, e⟩ <;> rw [e] <;> exact h
  engine h := engineMove_reads h

/-- Settles O36: the trace is followed from acceptance, where the whole window is left, to the end, where nothing is. -/
theorem eachWindowByteIsReadOnceInOrder : Obligations.EachWindowByteIsReadOnceInOrder := by
  intro s ts rest hp hs hd hcount
  have hinit : s.Reads (s.reads ++ windowAddrs s.latch.src 0#32 s.latch.len.toNat) (engineTurns ts + 1) :=
    ⟨_, hcount ▸ .init hp, rfl⟩
  obtain ⟨t, ht, -, hend⟩ := (reads_followsCommand _).run_to_end hs hd hinit
  exact ⟨t, ht, by rw [hend.reads_eq]; simp [windowAddrs]⟩

end Sys2Proof.Machine
end

section
/-! Encodings (spec/30_encoding.md R70 to R79): decode reads back what encode writes, in the three formats and in the
words of the opcode table, and answers well-formed instructions only. -/

namespace Sys2Proof

/-! ### Encode, then decode -/

theorem decode_encode {i : Instr} (h : i.wellFormed = true) : decode (encode i) = .ok i :=
  match i with
  | .nop => Laws.DecodeEncode.nop h
  | .hashSingle => Laws.DecodeEncode.hashSingle h
  | .hashDual => Laws.DecodeEncode.hashDual h
  | .illegal w => Laws.DecodeEncode.illegal w h
  | .lwCtrl => Laws.DecodeEncode.lwCtrl h
  | .swCtrl w => Laws.DecodeEncode.swCtrl w h
  | .lwStatus => Laws.DecodeEncode.lwStatus h
  | .swStatus v => Laws.DecodeEncode.swStatus v h
  | .lwSrcAddr => Laws.DecodeEncode.lwSrcAddr h
  | .swSrcAddr v => Laws.DecodeEncode.swSrcAddr v h
  | .lwLen => Laws.DecodeEncode.lwLen h
  | .swLen v => Laws.DecodeEncode.swLen v h
  | .lwSeed1 => Laws.DecodeEncode.lwSeed1 h
  | .swSeed1 v => Laws.DecodeEncode.swSeed1 v h
  | .lwSeed2 => Laws.DecodeEncode.lwSeed2 h
  | .swSeed2 v => Laws.DecodeEncode.swSeed2 v h
  | .lwResult0 => Laws.DecodeEncode.lwResult0 h
  | .swResult0 v => Laws.DecodeEncode.swResult0 v h
  | .lwResult1 => Laws.DecodeEncode.lwResult1 h
  | .swResult1 v => Laws.DecodeEncode.swResult1 v h
  | .lwReserved off => Laws.DecodeEncode.lwReserved off h
  | .swReserved off v => Laws.DecodeEncode.swReserved off v h
  | .stepInit => Laws.DecodeEncode.stepInit h
  | .stepBlock => Laws.DecodeEncode.stepBlock h
  | .stepTail => Laws.DecodeEncode.stepTail h
  | .stepFinal => Laws.DecodeEncode.stepFinal h
  | .stepWb => Laws.DecodeEncode.stepWb h
  | .phaseUnused code => Laws.DecodeEncode.phaseUnused code h

/-! ### The words of the opcode table -/

theorem mmioTableWord_offset (dir : Dir) (off : BitVec 8) (data : Word) :
    BitVec.ofNat 8 (mmioTableWord dir off data) = off := by
  refine BitVec.eq_of_toNat_eq ?_
  cases dir <;> simp only [mmioTableWord, BitVec.toNat_ofNat] <;> omega

theorem mmioTableWord_data (dir : Dir) (off : BitVec 8) (data : Word) :
    BitVec.ofNat 32 (mmioTableWord dir off data / 2 ^ 8) = data := by
  refine BitVec.eq_of_toNat_eq ?_
  cases dir <;> simp only [mmioTableWord, BitVec.toNat_ofNat] <;> omega

theorem mmioTableWord_read_bit40 (off : BitVec 8) (data : Word) : mmioTableWord .read off data / 2 ^ 40 % 2 = 0 := by
  simp only [mmioTableWord]
  omega

theorem mmioTableWord_write_bit40 (off : BitVec 8) (data : Word) : mmioTableWord .write off data / 2 ^ 40 % 2 = 1 := by
  simp only [mmioTableWord]
  omega

theorem tableFetch_of_read (off : BitVec 8) (data : Word) :
    tableFetch 48 (mmioTableWord .read off data) = encodeLoad off := by
  unfold tableFetch
  rw [mmioTableWord_read_bit40, mmioTableWord_offset]
  rfl

theorem tableFetch_of_write (off : BitVec 8) (v : Word) :
    tableFetch 48 (mmioTableWord .write off v) = encodeStore off v := by
  unfold tableFetch
  rw [mmioTableWord_write_bit40, mmioTableWord_offset, mmioTableWord_data]
  rfl

/-- A table word stands for the encoding it was made from. -/
theorem tableFetch_encodeTableWord (i : Instr) :
    tableFetch (encodeTableWord i).1 (encodeTableWord i).2 = encode i := by
  cases i with
  | lwCtrl | lwStatus | lwSrcAddr | lwLen | lwSeed1 | lwSeed2 | lwResult0 | lwResult1 | lwReserved off =>
    exact tableFetch_of_read _ 0#32
  | swCtrl v | swStatus v | swSrcAddr v | swLen v | swSeed1 v | swSeed2 v | swResult0 v | swResult1 v
  | swReserved off v => exact tableFetch_of_write _ v
  | illegal w => simp [encodeTableWord, encode, tableFetch]
  | phaseUnused code => simp [encodeTableWord, encode, tableFetch]
  | _ => rfl

/-- A table word decodes as the encoding it stands for does. -/
theorem decodeTableWord_iff {nbits w : Nat} {i : Instr} :
    decodeTableWord nbits w = some i ↔ decode (tableFetch nbits w) = .ok i := by
  unfold decodeTableWord
  cases decode (tableFetch nbits w) <;> simp

/-- Settles O2: each format gives its own instructions back, and a table word stands for the same encoding. -/
theorem encodingsDecodeBack : Obligations.EncodingsDecodeBack := by
  intro i h
  refine ⟨decode_encode h, decodeTableWord_iff.mpr ?_⟩
  rw [tableFetch_encodeTableWord, decode_encode h]

/-- Settles O1: each number stands for an encoding that decodes by the tables of R72, R76 and R77. -/
theorem wordsOfTheTableDecode : Obligations.WordsOfTheTableDecode :=
  ⟨rfl, rfl, rfl, rfl, rfl, rfl⟩

/-! ### The command decoder -/

/-- A command word is the number of its OP exactly where its RSVD bits are clear. -/
theorem eq_opcode_iff (w : Word) (op : BitVec 4) :
    w = op.setWidth 32 ↔ w.extractLsb' 4 28 = 0#28 ∧ w.extractLsb' 0 4 = op := by
  have := op.isLt
  simp only [BitVec.toNat_eq, BitVec.extractLsb'_toNat, Nat.shiftRight_eq_div_pow, BitVec.toNat_setWidth,
    BitVec.toNat_ofNat]
  omega

/-- Settles O3: with an RSVD bit set the word is none of the three command words, and else its OP tells which one it is. -/
theorem commandWordDecodesByOpAndRsvd : Obligations.CommandWordDecodesByOpAndRsvd := by
  intro w
  have hnop : w = 0#32 ↔ _ := eq_opcode_iff w 0x0#4
  have hsingle : w = 1#32 ↔ _ := eq_opcode_iff w 0x1#4
  have hdual : w = 2#32 ↔ _ := eq_opcode_iff w 0x2#4
  simp only [decodeCmd, hnop, hsingle, hdual]
  by_cases hrsvd : w.extractLsb' 4 28 = 0#28 <;> simp [hrsvd]

/-! ### The decoder answers well-formed instructions -/

theorem decodeCommandWord_wellFormed (w : Word) : (decodeCommandWord w).wellFormed = true := by
  by_cases h0 : w = 0#32
  · subst h0; rfl
  by_cases h1 : w = 1#32
  · subst h1; rfl
  by_cases h2 : w = 2#32
  · subst h2; rfl
  simp [decodeCommandWord, decodeCmd, Instr.wellFormed, h0, h1, h2]

/-- An aligned offset is reserved or it is a register's (R76). -/
theorem aligned_offset_cases {off : BitVec 8} (h : off.toNat % 4 = 0) :
    0x20 ≤ off.toNat ∨
    off ∈ [Off.ctrl, Off.status, Off.srcAddr, Off.len, Off.seed1, Off.seed2, Off.result0, Off.result1] := by
  simp only [List.mem_cons, List.not_mem_nil, BitVec.toNat_eq, BitVec.toNat_ofNat]
  omega

theorem decodeLoad_wellFormed {off : BitVec 8} (h : off.toNat % 4 = 0) : (decodeLoad off).wellFormed = true := by
  rcases aligned_offset_cases h with hres | hreg
  · rw [decodeLoad_reserved hres]
    simp [Instr.wellFormed, hres, h]
  · simp only [List.mem_cons, List.not_mem_nil, or_false] at hreg
    rcases hreg with rfl | rfl | rfl | rfl | rfl | rfl | rfl | rfl <;> rfl

theorem decodeStore_wellFormed {off : BitVec 8} (h : off.toNat % 4 = 0) (v : Word) :
    (decodeStore off v).wellFormed = true := by
  rcases aligned_offset_cases h with hres | hreg
  · rw [decodeStore_reserved hres]
    simp [Instr.wellFormed, hres, h]
  · simp only [List.mem_cons, List.not_mem_nil, or_false] at hreg
    rcases hreg with rfl | rfl | rfl | rfl | rfl | rfl | rfl | rfl <;> rfl

theorem decodePhase_wellFormed {code : BitVec 3} {i : Instr} (h : decodePhase code = .ok i) : i.wellFormed = true := by
  rcases decodePhase_ok h with ⟨rfl, -⟩ | ⟨rfl, -⟩ | ⟨rfl, -⟩ | ⟨rfl, -⟩ | ⟨rfl, -⟩ | ⟨rfl, hcode⟩
  iterate 5 rfl
  have hunused : code = 6#3 ∨ code = 7#3 := by bv_omega
  simpa [Instr.wellFormed] using hunused

/-- Settles O4, format by format. -/
theorem decodedInstructionsAreWellFormed : Obligations.DecodedInstructionsAreWellFormed := by
  intro f i h
  cases f with
  | mmio acc =>
    obtain ⟨hdef, hacc⟩ := decodeAccess_ok h
    obtain ⟨-, hoff⟩ := Machine.Access.defined_iff.mp hdef
    rcases hacc with ⟨-, rfl⟩ | ⟨-, rfl⟩
    · exact decodeLoad_wellFormed hoff
    · exact decodeStore_wellFormed hoff acc.data
  | cmd w =>
    obtain rfl := Except.ok.inj h
    exact decodeCommandWord_wellFormed w
  | phase code => exact decodePhase_wellFormed h

end Sys2Proof
end

section
/-! From an encoding to the step that runs it (spec/30_encoding.md R70, R76, R77, R79, R82). -/

namespace Sys2Proof.Machine

/-! ### Dispatch -/

/-- An encoding that decodes to `i` runs `i`. -/
theorem runFetched_of_decode {f : Fetched} {i : Instr} (h : decode f = .ok i) (s : State) : runFetched f s = exec i s := by
  simp only [runFetched, h]

/-- Settles O6: each move fetches one encoding and runs what it decodes to. -/
theorem stepRunsTheDecodedInstruction : Obligations.StepRunsTheDecodedInstruction := by
  intro s rest i
  refine ⟨fun acc hs hi => ?_, fun b acc hs hb hi => ?_, fun w hs hi => ?_, fun hs hi => ?_, fun hs hi => ?_⟩
  · rw [step_window_access (.inl hs), runFetched_of_decode hi]
  · rw [step_cons hs, popTurn_cons hs, runTurn_bus_of_resolve (s := { s with turns := rest }) hb]
    exact runFetched_of_decode hi _
  · rw [step_cons hs, popTurn_cons hs]
    exact runFetched_of_decode hi _
  · rw [step_cons hs, popTurn_cons hs]
    exact engineMove_of_decodePhase (s := { s with turns := rest }) hi
  · rw [step_nil hs]
    exact engineMove_of_decodePhase hi

/-- Settles O7: the placed encoding is the next move, and taking that move off the list gives the list of `s` again. -/
theorem placedTableWordRunsNext : Obligations.PlacedTableWordRunsNext := by
  intro s nbits w i h
  have hi := decodeTableWord_iff.mp h
  unfold State.withFetchWord
  cases hf : tableFetch nbits w with
  | mmio acc => exact runFetched_of_decode (hf ▸ hi) s
  | cmd w => exact runFetched_of_decode (hf ▸ hi) s
  | phase code =>
    rw [hf] at hi
    exact engineMove_of_decodePhase (s := { s with phase := code }) hi

/-! ### The offset table -/

theorem runFetched_read {off : BitVec 8} (h : off.toNat % 4 = 0) (v : Word) (s : State) :
    runFetched (.mmio ⟨.read, 4, off, v⟩) s = exec (decodeLoad off) s :=
  runFetched_of_decode (by simp [decode, decodeAccess, Access.defined, h]) s

theorem runFetched_write {off : BitVec 8} (h : off.toNat % 4 = 0) (v : Word) (s : State) :
    runFetched (.mmio ⟨.write, 4, off, v⟩) s = exec (decodeStore off v) s :=
  runFetched_of_decode (decode_encodeStore h v) s

/-- Settles O14: an aligned access runs the load or the store of its offset. -/
theorem windowAccessFollowsTheOffsetTable : Obligations.WindowAccessFollowsTheOffsetTable := by
  intro s off v rest h
  refine ⟨fun hs => ?_, fun hs => ?_⟩
  · rw [step_window_access (.inl hs), runFetched_read h, exec_load]
    rfl
  · rw [step_window_access (.inl hs), runFetched_write h, exec_store]
    rfl

/-! ### Unused phase codes -/

/-- The engine's move in a state that holds an unused code is PHASE.UNUSED, which faults (R79). -/
theorem engineMove_of_unused {s : State} (h : s.phase = 6#3 ∨ s.phase = 7#3) : engineMove s = .fault .unusedPhase := by
  rcases h with h | h
  · exact engineMove_of_decodePhase (i := .phaseUnused 6#3) (by rw [h]; rfl)
  · exact engineMove_of_decodePhase (i := .phaseUnused 7#3) (by rw [h]; rfl)

/-- A step keeps the phase to the six codes of R77: a host's move keeps it or accepts, and an engine step leads to one of
them. -/
theorem step_phase_le {s t : State} (hs : s.phase.toNat ≤ 5) (h : step s = .next t) : t.phase.toNat ≤ 5 := by
  obtain ⟨s0, hs0, hmove⟩ := step_cases h
  obtain ⟨ts, rfl⟩ := eq_withTurns hs0
  rcases hmove with ⟨-, rfl⟩ | ⟨-, rfl⟩ | ⟨-, rfl⟩ | ⟨-, rfl⟩ | ⟨-, rfl⟩ | ⟨-, rfl⟩ | ⟨i, hi, hx⟩ |
    ⟨a, v, -, -, rfl⟩ | ⟨-, -, rfl⟩
  · exact hs
  · rcases initNext_cases s.latch.len with ⟨e, -⟩ | ⟨e, -⟩ | ⟨e, -⟩ <;> simp [e]
  · rcases blockNext_cases (s.rem - 12#32) with ⟨e, -⟩ | ⟨e, -⟩ <;> simp [e]
  iterate 3 simp
  · rcases execHost_fields hi hx with ⟨ht, -⟩ | ⟨m, -, rfl⟩
    · rw [ht]
      exact hs
    · simp
  · exact hs
  · simp

/-- Settles O29: an unused code decodes to PHASE.UNUSED, and the steps keep to the other six. -/
theorem unusedPhasesFaultAndAreNeverReached : Obligations.UnusedPhasesFaultAndAreNeverReached := by
  refine ⟨fun _ _ => rfl, fun s hp => ⟨fun hs => ?_, fun rest hs => ?_⟩, rfl, fun _ _ => step_phase_le⟩
  · rw [step_nil hs, engineMove_of_unused hp]
  · rw [step_cons hs]
    exact engineMove_of_unused (s := s.popTurn) hp

/-! ### POLL -/

/-- Bit 1 of STATUS is DONE (R101). -/
theorem statusWord_done (s : State) : s.statusWord.getLsbD 1 = s.done := by
  simp [State.statusWord, zextBit]

/-- POLL's mask is bit 1. -/
theorem statusWord_and_two (s : State) : s.statusWord &&& 0x2#32 = 0#32 ↔ s.done = false := by
  have hmask : 0x2#32 = BitVec.twoPow 32 1 := rfl
  rw [hmask, BitVec.and_twoPow, statusWord_done]
  cases s.done <;> decide

/-- The variable set last is the one a host reads. -/
@[simp] theorem HostProg.get_mk_cons (ops : List HostOp) (line x : Nat) (v : Word) (vars : List (Nat × Word)) :
    HostProg.get ⟨ops, line, (x, v) :: vars⟩ x = v := by
  simp [HostProg.get]

/-- A host at a load of STATUS gets it into its variable. -/
theorem System.hostMove_lw_status {y : System} {x : Nat} (h : y.host.ops[y.host.line]? = some (.lw Off.status x)) :
    y.hostMove = .next {
      host := { y.host with line := y.host.line + 1, vars := (x, y.block.statusWord) :: y.host.vars }
      block := y.block.answer y.block.statusWord } := by
  have hload : runFetched (encodeLoad Off.status) y.block = .next (y.block.answer y.block.statusWord) := rfl
  simp [System.hostMove, h, hload]

/-- A branch moves the host to another of its lines and does nothing else (R81). -/
theorem System.hostMove_bz {y : System} {x label : Nat} {mask : Word}
    (h : y.host.ops[y.host.line]? = some (.bz x mask label)) :
    y.hostMove = .next { y with host := { y.host with
      line := if y.host.get x &&& mask = 0#32 then label else y.host.line + 1 } } := by
  simp only [System.hostMove, h]
  split <;> rfl

/-- Settles O55: the branch of POLL tests the DONE bit of the word that the load has just read. -/
theorem pollLeavesExactlyWhenDone : Obligations.PollLeavesExactlyWhenDone := by
  intro y x hlw hbz
  refine ⟨_, _, System.hostMove_lw_status hlw, System.hostMove_bz hbz, ?_, HostProg.get_mk_cons .., rfl⟩
  simp only [HostProg.get_mk_cons, statusWord_and_two]
  cases y.block.done <;> simp

end Sys2Proof.Machine
end

section
/-! The host's loads and stores of the register window and its commands (spec/40_commands.md R100 to R107): what each answers,
and what it leaves alone. -/

namespace Sys2Proof.Machine

/-! ### Loads -/

/-- Settles O10: the load of each register is `State.answer` of its value, and CTRL and the reserved offsets have none. -/
theorem loadsAnswerTheRegister : Obligations.LoadsAnswerTheRegister :=
  fun _ => ⟨rfl, rfl, rfl, rfl, rfl, rfl, rfl, rfl, fun _ => rfl⟩

@[simp] theorem zextBit_getLsbD (b : Bool) (i : Nat) : (zextBit b).getLsbD i = (decide (i = 0) && b) := by
  cases i <;> simp [zextBit]

/-- Bit 0 of STATUS is BUSY (R101). -/
theorem statusWord_busy (s : State) : s.statusWord.getLsbD 0 = s.busy := by
  simp [State.statusWord, zextBit]

/-- Bit 2 of STATUS is ERR (R101). -/
theorem statusWord_err (s : State) : s.statusWord.getLsbD 2 = s.err := by
  simp [State.statusWord, zextBit]

/-- Bit 3 of STATUS is MODE (R101). -/
theorem statusWord_mode (s : State) : s.statusWord.getLsbD 3 = s.latch.mode.bit := by
  simp [State.statusWord, zextBit]

/-- From bit 4 on STATUS holds ERRCODE, and zeros above its four bits (R101). -/
theorem statusWord_getLsbD_add_four (s : State) (i : Nat) : s.statusWord.getLsbD (4 + i) = s.errCode.getLsbD i := by
  have hbit (b : Bool) (k : Nat) (hk : k < 4) : (zextBit b <<< k).getLsbD (4 + i) = false := by
    simp
    omega
  have hbusy : (zextBit s.busy).getLsbD (4 + i) = false := by simp
  have hcode : (s.errCode.setWidth 32 <<< 4).getLsbD (4 + i) = s.errCode.getLsbD i := by
    by_cases h : s.errCode.getLsbD i = true
    · have hi : i < 4 := BitVec.lt_of_getLsbD h
      simp [h]
      omega
    · simp [h]
  simp only [State.statusWord, BitVec.getLsbD_or, hcode, hbit, hbusy, Bool.or_false, Nat.reduceLT]

theorem Mode.bit_iff {m : Mode} : m.bit = true ↔ m = .dual := by
  cases m <;> decide

/-- Settles O11, bit by bit. That DONE excludes BUSY is a part of the invariant. -/
theorem statusWordHoldsTheFlags : Obligations.StatusWordHoldsTheFlags := by
  intro s
  refine ⟨s.statusWord, rfl, ?_, ?_, statusWord_err s, statusWord_done s, ?_, ?_, fun hinv hdone => ?_⟩
  · ext i hi
    simp [hi, statusWord_getLsbD_add_four, ← BitVec.getLsbD_eq_getElem]
  · rw [statusWord_mode, Mode.bit_iff]
  · rw [statusWord_busy, busy_iff]
  · ext i hi
    have habove : s.errCode.getLsbD (4 + i) = false := BitVec.getLsbD_of_ge _ _ (by omega)
    have hbit := statusWord_getLsbD_add_four s (4 + i)
    rw [← Nat.add_assoc, habove] at hbit
    simpa [hi] using hbit
  · obtain ⟨-, -, ⟨-, -, hexcl⟩, -, -⟩ := hinv
    rw [statusWord_done] at hdone
    rw [statusWord_busy, hexcl hdone]

/-! ### Stores -/

/-- Settles O12: each of the four stores is the update of one field. -/
theorem operandStoresWriteTheirRegister : Obligations.OperandStoresWriteTheirRegister :=
  fun _ _ => ⟨rfl, rfl, rfl, rfl⟩

/-- Settles O13: the meaning of each of these stores is the state itself. -/
theorem otherStoresAreIgnored : Obligations.OtherStoresAreIgnored :=
  fun _ _ => ⟨rfl, rfl, rfl, fun _ => rfl⟩

/-! ### Commands -/

/-- Settles O15: the meaning of NOP is the state itself. -/
theorem nopChangesNothing : Obligations.NopChangesNothing := fun _ => rfl

theorem issueHash_of_idle {s : State} (h : s.phase = Phase.idle) (m : Mode) : issueHash m s = .next (s.accept m) := by
  rcases issueHash_cases m s with ⟨hbusy, -⟩ | ⟨-, e⟩
  · exact absurd h hbusy
  · exact e

theorem issueHash_of_busy {s : State} (h : s.phase ≠ Phase.idle) (m : Mode) :
    issueHash m s = .next (s.cmdError ErrCode.busyCmd) := by
  rcases issueHash_cases m s with ⟨-, e⟩ | ⟨hidle, -⟩
  · exact e
  · exact absurd hidle h

/-- Settles O16: with phase IDLE both commands are accepted, and acceptance clears `spoiled`. -/
theorem idleHashCommandIsAccepted : Obligations.IdleHashCommandIsAccepted :=
  fun _ hp => ⟨false, issueHash_of_idle hp .single, issueHash_of_idle hp .dual⟩

/-- A store to CTRL runs the command its word decodes to (R104). -/
theorem exec_swCtrl (w : Word) (s : State) : exec (.swCtrl w) s = exec (decodeCommandWord w) s :=
  exec_store 0x00#8 w s

theorem decodeCommandWord_of_illegal {w : Word} (h0 : w ≠ 0#32) (h1 : w ≠ 1#32) (h2 : w ≠ 2#32) :
    decodeCommandWord w = .illegal w := by
  simp [decodeCommandWord, decodeCmd, h0, h1, h2]

/-- Settles O19: the word selects the command first, and only a hash command asks for the phase. -/
theorem ctrlStoreIssuesItsCommand : Obligations.CtrlStoreIssuesItsCommand := by
  intro s w
  rw [exec_swCtrl]
  refine ⟨false, ?_, ?_, ?_, ?_, fun h0 h1 h2 => ?_⟩
  · rintro rfl
    rfl
  · rintro rfl hp
    exact issueHash_of_idle hp .single
  · rintro rfl hp
    exact issueHash_of_idle hp .dual
  · rintro (rfl | rfl) hp
    · exact issueHash_of_busy hp .single
    · exact issueHash_of_busy hp .dual
  · rw [decodeCommandWord_of_illegal h0 h1 h2]
    rfl

end Sys2Proof.Machine
end

section
/-! The mode of a running command shows in nothing but what WB writes to RESULT1 (spec/41_absorb_sequence.md R138, R143): two
commands that differ in their mode only go through the same steps, up to the mode, until WB. -/

namespace Sys2Proof.Machine

/-- `s` with the running command's mode replaced. -/
def State.withMode (s : State) (m : Mode) : State := { s with latch := { s.latch with mode := m } }

/-- With SEED2 = 0 the two commands latch the same operands (R106). -/
theorem accept_dual_eq_withMode {s : State} (h : s.seed2 = 0#32) : s.accept .dual = (s.accept .single).withMode .dual := by
  simp [State.accept, State.operands, State.withMode, h]

/-- RESULT0 is C in both modes (R138). -/
theorem results_fst_withMode (s : State) (m : Mode) : (s.withMode m).results.1 = s.results.1 := by
  unfold State.results State.withMode
  cases s.spoiled <;> rfl

/-- RESULT1 is 0 in single mode (R138). -/
theorem results_snd_of_single {s : State} (hspoiled : s.spoiled = false) (hmode : s.latch.mode = .single) :
    s.results.2 = 0#32 := by
  simp [State.results, hspoiled, hmode]

/-- No step of the engine but WB looks at the mode. -/
theorem engineMove_withMode {s t : State} (m : Mode) (hwb : s.phase ≠ Phase.wb) (h : engineMove s = .next t) :
    engineMove (s.withMode m) = .next (t.withMode m) := by
  rcases engineMove_next h with ⟨hidle, ht⟩ | ⟨-, i, hi, hx⟩
  · rw [ht]
    have hbusy : (s.withMode m).busy = false := not_busy_iff.mpr hidle
    simp [engineMove, hbusy]
  · rw [engineMove_of_decodePhase (s := s.withMode m) hi]
    rcases decodePhase_ok hi with ⟨rfl, -⟩ | ⟨rfl, -⟩ | ⟨rfl, -⟩ | ⟨rfl, -⟩ | ⟨-, hp⟩ | ⟨rfl, -⟩
    iterate 4
      obtain rfl := Outcome.next_inj.mp hx
      rfl
    · exact absurd hp hwb
    · cases hx

/-- Only the host's writes of memory spoil a command (R234). -/
theorem engineMove_spoiled {s t : State} (h : engineMove s = .next t) : t.spoiled = s.spoiled := by
  rcases engineMove_next h with ⟨-, rfl⟩ | ⟨-, i, hi, hx⟩
  · rfl
  · rcases execPhase_next hi s t hx with ⟨-, rfl⟩ | ⟨-, rfl⟩ | ⟨-, rfl⟩ | ⟨-, rfl⟩ | ⟨-, rfl⟩ <;> rfl

/-- A command is at WB exactly where one engine step is left (R145). -/
theorem State.Reads.phase_eq_wb_iff {all : List Addr} {n : Nat} {s : State} (h : s.Reads all (n + 1)) :
    s.phase = Phase.wb ↔ n = 0 := by
  obtain ⟨todo, hleft, -⟩ := h
  generalize hn : n + 1 = steps at hleft
  cases hleft with
  | init hp =>
    have htwo : 2 ≤ stepCount s.latch.len.toNat := by
      unfold stepCount
      split <;> omega
    simp [hp]
    omega
  | absorb hp => rcases hp with ⟨hp, -⟩ | ⟨hp, -⟩ <;> simp [hp] <;> omega
  | final hp | wb hp =>
    simp [hp]
    omega
  | idle => cases hn

/-- With no host move listed, a command with `n + 1` engine steps left is at WB after `n` of them, and under another mode it
gets to the same state but for the mode. -/
theorem run_withMode_to_wb (m : Mode) {all : List Addr} {n : Nat} {s : State} (h : s.Reads all (n + 1)) (hs : s.turns = []) :
    ∃ t, State.run n s = .next t ∧ State.run n (s.withMode m) = .next (t.withMode m) ∧
      t.phase = Phase.wb ∧ t.turns = [] ∧ t.latch = s.latch ∧ t.spoiled = s.spoiled := by
  induction n generalizing s with
  | zero => exact ⟨s, rfl, rfl, h.phase_eq_wb_iff.mpr rfl, hs, rfl, rfl⟩
  | succ n ih =>
    have hwb : s.phase ≠ Phase.wb := fun hp => nomatch h.phase_eq_wb_iff.mp hp
    obtain ⟨u, hu, hreads⟩ := engineMove_reads h
    have hset := engineMove_sameSetting hu
    obtain ⟨t, ht, ht', hp, hturns, hlatch, hspoiled⟩ := ih hreads (hset.turns.trans hs)
    refine ⟨t, ?_, ?_, hp, hturns, hlatch.trans hset.latch, hspoiled.trans (engineMove_spoiled hu)⟩
    · rw [run_succ n ((step_nil hs).trans hu), ht]
    · rw [run_succ n ((step_nil (s := s.withMode m) hs).trans (engineMove_withMode m hwb hu)), ht']

/-- A run that gets to WB with no host move listed writes back in one step more. -/
theorem run_succ_of_wb {n : Nat} {s t : State} (h : State.run n s = .next t) (hp : t.phase = Phase.wb)
    (hturns : t.turns = []) : State.run (n + 1) s = .next t.writeBack := by
  rw [run_add 1 h, run_one, step_nil hturns, engineMove_of_decodePhase (i := .stepWb) (by rw [hp]; rfl)]
  rfl

/-- Settles O41: both commands get to WB in the same state but for the mode, which WB does not look at for RESULT0. -/
theorem singleAndDualShareTheirFirstResult : Obligations.SingleAndDualShareTheirFirstResult := by
  intro s hp hs hseed
  obtain ⟨n, hn⟩ : ∃ n, stepCount s.len.toNat = n + 1 := Nat.exists_eq_succ_of_ne_zero (stepCount_pos _).ne'
  have hreads : (s.accept .single).Reads (s.reads ++ windowAddrs s.srcAddr 0#32 s.len.toNat) (n + 1) :=
    ⟨_, hn ▸ .init rfl, rfl⟩
  obtain ⟨t, hsingle, hdual, hwb, hturns, hlatch, hspoiled⟩ := run_withMode_to_wb .dual hreads hs
  rw [← accept_dual_eq_withMode hseed] at hdual
  rw [hn]
  exact ⟨_, _, t.writeBack, (t.withMode .dual).writeBack, issueHash_of_idle hp .single, issueHash_of_idle hp .dual,
    run_succ_of_wb hsingle hwb hturns, run_succ_of_wb hdual hwb hturns, rfl, rfl, results_fst_withMode t .dual,
    results_snd_of_single hspoiled (by rw [hlatch]; rfl)⟩

end Sys2Proof.Machine
end

section
/-! What each step of the engine writes (spec/41_absorb_sequence.md R130 to R138), byte by byte where it absorbs a block. -/

namespace Sys2Proof.Machine

/-! ### The idle engine -/

theorem engineMove_of_idle {s : State} (h : s.phase = Phase.idle) : engineMove s = .next s := by
  simp [engineMove, not_busy_iff.mpr h]

/-- Settles O8: the engine's move is the state it is made on, which for a listed turn is the state less that turn. -/
theorem idleEngineMoveChangesNothing : Obligations.IdleEngineMoveChangesNothing := by
  intro s hp
  refine ⟨fun hs => (step_nil hs).trans (engineMove_of_idle hp), fun rest hs => ?_⟩
  rw [step_cons hs, popTurn_cons hs]
  exact engineMove_of_idle hp

/-! ### INIT -/

theorem initNext_eq (len : Word) :
    initNext len = if len.toNat = 0 then 0b101#3 else if len.toNat ≤ 12 then 0b011#3 else 0b010#3 := by
  rcases initNext_cases len with ⟨e, hl⟩ | ⟨e, hl⟩ | ⟨e, hl, hl'⟩
  · simp [e, hl]
  · rw [e, if_neg (by omega), if_neg (by omega)]
  · rw [e, if_neg (by omega), if_pos hl']

/-- Settles O21: R132's choice is `initNext_eq`, and the rest is what `State.initialise` writes. -/
theorem initStepSetsUpTheHash : Obligations.InitStepSetsUpTheHash := by
  intro s
  rw [← initNext_eq]
  rfl

/-! ### Absorption -/

/-- The bytes of a window as a block: those it has, and 0x00 after them (R75). -/
theorem blk_portBytes (s : State) (src k : Word) (n j : Nat) :
    blk (s.portBytes (windowAddrs src k n)) j =
      if j < n then s.mem.read (src + k + BitVec.ofNat 32 j).toNat else 0x00#8 := by
  unfold blk State.portBytes windowAddrs
  split
  case isTrue h => simp [h, State.memRead]
  case isFalse h => simp [Nat.le_of_not_lt h]

/-- Absorption looks at the first twelve bytes of a block only. -/
theorem absorb_eq {data : List Byte} {d : Nat → Byte} (h : ∀ j < 12, d j = blk data j) (t : Accs) :
    t.absorb data = ⟨t.a + le32 (d 0) (d 1) (d 2) (d 3), t.b + le32 (d 4) (d 5) (d 6) (d 7),
      t.c + le32 (d 8) (d 9) (d 10) (d 11)⟩ := by
  simp [Accs.absorb, blockWords, h]

/-- Settles O22: the twelve bytes of the window at K are the block's. -/
theorem blockStepAbsorbsTwelveBytesAndMixes : Obligations.BlockStepAbsorbsTwelveBytesAndMixes := by
  intro s d _ hd
  refine ⟨s.blockAddrs, .refl _, ?_⟩
  rw [← absorb_eq (data := s.portBytes s.blockAddrs) fun j hj => ?bytes]
  case bytes => rw [hd, State.blockAddrs, blk_portBytes, if_pos hj]
  rfl

/-- With REM at most 12, TAIL reads the bytes left (R135). -/
theorem tailAddrs_of_le {s : State} (h : s.rem.toNat ≤ 12) : s.tailAddrs = windowAddrs s.latch.src s.k s.rem.toNat := by
  rw [State.tailAddrs, min_eq_left h]

/-- Settles O23: the window of REM bytes at K is the final block, and what it lacks counts as 0x00. -/
theorem tailStepAbsorbsTheFinalBlock : Obligations.TailStepAbsorbsTheFinalBlock := by
  intro s d _ hle hd
  refine ⟨s.tailAddrs, by rw [tailAddrs_of_le hle]; exact .refl _, ?_⟩
  rw [← absorb_eq (data := s.portBytes s.tailAddrs) fun j _ => ?bytes]
  case bytes => rw [hd, tailAddrs_of_le hle, blk_portBytes]
  rfl

/-- Byte `j` of a block where its accumulator adds it: zero-extended, and shifted to its place in the word (R136). -/
def bytePiece (b : Byte) (j : Nat) : Word := b.setWidth 32 <<< (8 * (j % 4))

/-- Adding the assembled words is adding their bytes one by one. -/
theorem absorb_eq_pieces {data : List Byte} {p : Nat → Word} (h : ∀ j, p j = bytePiece (blk data j) j) (t : Accs) :
    t.absorb data = ⟨t.a + p 0 + p 1 + p 2 + p 3, t.b + p 4 + p 5 + p 6 + p 7, t.c + p 8 + p 9 + p 10 + p 11⟩ := by
  simp [Accs.absorb, blockWords, le32_add, h, bytePiece, BitVec.add_assoc]

/-- Settles O24: the pieces add up to the words, and those of missing bytes are 0. -/
theorem tailBytesReachTheirAccumulator : Obligations.TailBytesReachTheirAccumulator := by
  intro s p _ hle hp
  have hpiece (j : Nat) : p j = bytePiece (blk (s.portBytes s.tailAddrs) j) j := by
    rw [hp, tailAddrs_of_le hle, blk_portBytes]
    split
    case isTrue => rfl
    case isFalse => simp [bytePiece]
  have hnone {j : Nat} (hj : s.rem.toNat ≤ j) : p j = 0#32 := by rw [hp, if_neg (by omega)]
  refine ⟨_, rfl, ?_⟩
  rw [State.drivePort_accs, State.absorbTail_accs, absorb_eq_pieces hpiece]
  refine ⟨rfl, rfl, rfl, fun h4 => ?_, fun h8 => ?_⟩
  · simp [hnone (j := 4) h4, hnone (j := 5) (by omega), hnone (j := 6) (by omega), hnone (j := 7) (by omega)]
  · simp [hnone (j := 8) h8, hnone (j := 9) (by omega), hnone (j := 10) (by omega), hnone (j := 11) (by omega)]

/-! ### WB -/

/-- The results of a command whose window the host left alone (R138). -/
theorem results_of_unspoiled {s : State} (h : s.spoiled = false) :
    s.results = (s.accs.c, if s.latch.mode = .dual then s.accs.b else 0x00000000#32) := by
  unfold State.results
  cases s.latch.mode <;> simp [h]

/-- Settles O26: no draw is taken, and the results are C and B or 0. -/
theorem writeBackStepPublishesTheResults : Obligations.WriteBackStepPublishesTheResults := by
  intro s h
  simp [exec, execStepWb, State.writeBack, results_of_unspoiled h, h]

/-! ### The pure hash -/

/-- Settles O40: the empty input gives `0xdeadbeef + s1 + s2` and `0xdeadbeef + s1`, equal for `s2 = 0` only. -/
theorem dualAgreesWithSingleOnlyForSeedZero : Obligations.DualAgreesWithSingleOnlyForSeedZero := by
  refine ⟨fun s1 s2 => ⟨fun h => ?_, fun h data => ?_⟩, by decide, by decide⟩
  · have hempty : 0xdeadbeef#32 + 0#32 + s1 + s2 = 0xdeadbeef#32 + 0#32 + s1 + 0#32 := h []
    exact (BitVec.add_right_inj _).mp hempty
  · rw [h]
    rfl

end Sys2Proof.Machine
end

section
/-! A command with no host move listed (spec/41_absorb_sequence.md R139 to R145): its BLOCK and TAIL steps absorb the input as
the loop of R141 does, and its last steps leave the hash. -/

namespace Sys2Proof.Machine

/-! ### The absorption of a whole input -/

/-- R141 up to its `final`: the final block is added to what the blocks before it leave. -/
def absorbInput (fuel : Nat) (data : List Byte) (t : Accs) : Accs :=
  (absorbBlocks fuel data t).1.absorb (absorbBlocks fuel data t).2

/-- An input of at most twelve bytes is its own final block. -/
theorem absorbInput_of_le {data : List Byte} (h : data.length ≤ 12) (fuel : Nat) (t : Accs) :
    absorbInput fuel data t = t.absorb data := by
  cases fuel with
  | zero => rfl
  | succ fuel => simp [absorbInput, absorbBlocks, Nat.not_lt.mpr h]

/-- Of a longer input the first twelve bytes are absorbed and mixed. -/
theorem absorbInput_append {block data : List Byte} (hblock : block.length = 12) (hdata : data ≠ []) (fuel : Nat) (t : Accs) :
    absorbInput (fuel + 1) (block ++ data) t = absorbInput fuel data (mix (t.absorb block)) := by
  have hlong : 12 < (block ++ data).length := by
    rw [List.length_append, hblock]
    exact Nat.lt_add_of_pos_right (List.length_pos_iff.mpr hdata)
  simp only [absorbInput, absorbBlocks, hlong, if_true, List.take_left' hblock, List.drop_left' hblock]

theorem hashAccs_of_ne_nil {data : List Byte} (h : data ≠ []) (s1 s2 : Word) :
    hashAccs data s1 s2 =
      finalMix (absorbInput data.length data (initAccs (BitVec.ofNat 32 data.length) s1 s2)) := by
  simp [hashAccs, absorbInput, h]

/-! ### The bytes the read port answers -/

@[simp] theorem portBytes_length (s : State) (addrs : List Addr) : (s.portBytes addrs).length = addrs.length :=
  List.length_map _

@[simp] theorem windowAddrs_length (src k : Word) (n : Nat) : (windowAddrs src k n).length = n := by
  simp [windowAddrs]

theorem portBytes_append (s : State) (addrs addrs' : List Addr) :
    s.portBytes (addrs ++ addrs') = s.portBytes addrs ++ s.portBytes addrs' :=
  List.map_append

theorem inputBytes_length (m : Memory) (src len : Word) : (inputBytes m src len).length = len.toNat := by
  simp [inputBytes]

/-! ### The engine's steps in a row -/

/-- Where no host move is listed, a step is the step of the phase. -/
theorem step_of_decodePhase {s : State} {i : Instr} (hs : s.turns = []) (hi : decodePhase s.phase = .ok i) :
    step s = exec i s :=
  (step_nil hs).trans (engineMove_of_decodePhase hi)

/-- The addresses of the bytes that are left. -/
def State.restAddrs (s : State) : List Addr := windowAddrs s.latch.src s.k s.rem.toNat

/-- `s` with the bytes that are left absorbed, and FINAL to come. -/
def State.absorbRest (fuel : Nat) (s : State) : State :=
  { s with accs := absorbInput fuel (s.portBytes s.restAddrs) s.accs, k := s.k + s.rem, rem := 0#32, phase := Phase.final,
           reads := s.reads ++ s.restAddrs }

/-- TAIL absorbs what is left where that is one block. -/
theorem absorbTail_eq_absorbRest {s : State} (h : s.rem.toNat ≤ 12) (fuel : Nat) :
    s.absorbTail.drivePort s.tailAddrs = s.absorbRest fuel := by
  rw [State.absorbRest, absorbInput_of_le (by simpa [State.restAddrs] using h), State.restAddrs, ← tailAddrs_of_le h]
  rfl

/-- Where more is left, a BLOCK step takes the first block of it. -/
theorem absorbRest_succ {s : State} (h : 12 < s.rem.toNat) (fuel : Nat) :
    s.absorbRest (fuel + 1) = (s.absorbBlock.drivePort s.blockAddrs).absorbRest fuel := by
  have hsplit : s.rem.toNat = 12 + (s.rem - 12#32).toNat := by bv_omega
  have haddrs : s.restAddrs = s.blockAddrs ++ (s.absorbBlock.drivePort s.blockAddrs).restAddrs := by
    rw [State.restAddrs, hsplit]
    exact windowAddrs_add s.latch.src s.k 12 _
  have hk : s.k + 12#32 + (s.rem - 12#32) = s.k + s.rem := by bv_omega
  have hne : s.portBytes (s.absorbBlock.drivePort s.blockAddrs).restAddrs ≠ [] := by
    apply List.ne_nil_of_length_pos
    simp [State.restAddrs]
    bv_omega
  rw [State.absorbRest, haddrs, portBytes_append, absorbInput_append (by simp [State.blockAddrs]) hne, ← hk,
    ← List.append_assoc]
  rfl

theorem blockCount_pos {len : Nat} (h : 12 < len) : 0 < blockCount len := by
  unfold blockCount
  split <;> omega

theorem blockCount_le (len : Nat) : blockCount len ≤ len := by
  unfold blockCount
  split <;> omega

/-- The rest at TAIL is one step. -/
theorem run_absorbRest_of_tail {s : State} (hs : s.turns = []) (hp : s.phase = Phase.tail) (hrem : s.rem.toNat ≤ 12)
    (fuel : Nat) : State.run (blockCount s.rem.toNat + 1) s = .next (s.absorbRest fuel) := by
  rw [blockCount_of_le hrem, run_one, step_of_decodePhase (i := .stepTail) hs (by rw [hp]; rfl),
    ← absorbTail_eq_absorbRest hrem]
  rfl

/-- From BLOCK or TAIL on, the bytes that are left are absorbed in their BLOCK steps and one TAIL step. -/
theorem run_absorbRest {fuel : Nat} {s : State} (hs : s.turns = [])
    (hp : (s.phase = Phase.block ∧ 12 < s.rem.toNat) ∨ (s.phase = Phase.tail ∧ s.rem.toNat ≤ 12))
    (hfuel : blockCount s.rem.toNat ≤ fuel) :
    State.run (blockCount s.rem.toNat + 1) s = .next (s.absorbRest fuel) := by
  induction fuel generalizing s with
  | zero =>
    rcases hp with ⟨hp, hrem⟩ | ⟨hp, hrem⟩
    · have := blockCount_pos hrem
      omega
    · exact run_absorbRest_of_tail hs hp hrem 0
  | succ fuel ih =>
    rcases hp with ⟨hp, hrem⟩ | ⟨hp, hrem⟩
    · have hcount : blockCount s.rem.toNat = blockCount (s.rem - 12#32).toNat + 1 := by
        rw [← blockCount_add_twelve (by bv_omega)]
        congr 1
        bv_omega
      rw [hcount, run_succ _ (step_of_decodePhase (i := .stepBlock) hs (by rw [hp]; rfl)), absorbRest_succ hrem]
      exact ih hs (blockNext_cases _) (Nat.le_of_succ_le_succ (hcount.symm.trans_le hfuel))
    · exact run_absorbRest_of_tail hs hp hrem (fuel + 1)

/-! ### The whole command -/

/-- Just before WB: the hash is in the accumulators, and every byte of the window has been read. -/
def State.atWriteBack (s : State) : State :=
  { s with accs := hashAccs (inputBytes s.mem s.latch.src s.latch.len) s.latch.seed1 s.latch.seed2, k := s.latch.len,
           rem := 0#32, phase := Phase.wb, reads := s.reads ++ windowAddrs s.latch.src 0#32 s.latch.len.toNat }

/-- The empty input is there after INIT (R139). -/
theorem initialise_of_empty {s : State} (h : s.latch.len = 0#32) : s.initialise = s.atWriteBack := by
  simp [State.initialise, State.atWriteBack, h, initNext, inputBytes, windowAddrs, hashAccs]

/-- Any other input is there when its bytes are absorbed and FINAL has run. -/
theorem avalanche_absorbRest_initialise {s : State} (h : s.latch.len ≠ 0#32) :
    (s.initialise.absorbRest s.latch.len.toNat).avalanche = s.atWriteBack := by
  have hne : inputBytes s.mem s.latch.src s.latch.len ≠ [] := by
    intro hnil
    have hlen := inputBytes_length s.mem s.latch.src s.latch.len
    rw [hnil] at hlen
    exact h (BitVec.eq_of_toNat_eq hlen.symm)
  have hk : s.initialise.k + s.initialise.rem = s.latch.len := BitVec.zero_add _
  rw [State.atWriteBack, hashAccs_of_ne_nil hne, inputBytes_length, BitVec.ofNat_toNat, BitVec.setWidth_eq,
    State.absorbRest, hk]
  rfl

theorem run_to_writeBack {s : State} {n : Nat} (hp : s.phase = Phase.init) (hs : s.turns = [])
    (hn : stepCount s.latch.len.toNat = n + 1) : State.run n s = .next s.atWriteBack := by
  have hinit : step s = .next s.initialise := step_of_decodePhase (i := .stepInit) hs (by rw [hp]; rfl)
  rcases initNext_cases s.latch.len with ⟨-, hl⟩ | hl
  · obtain rfl : n = 1 := by simpa [hl, stepCount] using hn.symm
    rw [run_one, hinit, initialise_of_empty (BitVec.eq_of_toNat_eq hl)]
  · have hpos : 0 < s.latch.len.toNat := by omega
    obtain rfl : n = blockCount s.latch.len.toNat + 1 + 1 + 1 := by have := stepCount_of_pos hpos; omega
    have habsorb : State.run (blockCount s.latch.len.toNat + 1) s.initialise = _ :=
      run_absorbRest (fuel := s.latch.len.toNat) hs (hl.imp_right fun h => ⟨h.1, h.2.2⟩) (blockCount_le _)
    rw [run_succ _ hinit, run_add 1 habsorb, run_one,
      step_of_decodePhase (s := s.initialise.absorbRest _) (i := .stepFinal) hs rfl,
      ← avalanche_absorbRest_initialise (by bv_omega)]
    rfl

/-- Settles O34: the command gets to WB with its hash in the accumulators, and WB publishes it. -/
theorem quietCommandComputesTheHash : Obligations.QuietCommandComputesTheHash := by
  intro s data hp hs hspoiled hdata
  obtain ⟨n, hn⟩ : ∃ n, stepCount s.latch.len.toNat = n + 1 := Nat.exists_eq_succ_of_ne_zero (stepCount_pos _).ne'
  have hwb : (Host.Outcome.next s.atWriteBack.writeBack : Result) = _ :=
    writeBackStepPublishesTheResults s.atWriteBack hspoiled
  rw [hn, run_succ_of_wb (run_to_writeBack hp hs hn) rfl hs, hwb, hdata]
  rfl

/-- Settles O38: the hash of no bytes is the initial accumulators (R139). -/
theorem emptyInputIsNotMixed : Obligations.EmptyInputIsNotMixed := by
  intro s hp hs hspoiled hlen hseed
  have hrun := quietCommandComputesTheHash s _ hp hs hspoiled rfl
  have hdata : inputBytes s.mem s.latch.src s.latch.len = [] := by simp [inputBytes, windowAddrs, hlen]
  rw [hdata, hlen] at hrun
  refine ⟨_, hrun, rfl, rfl, by simp [windowAddrs], fun hm => ?_, fun hm => ?_⟩
  · simp [hm, hseed hm, hash2, hashAccs, initAccs]
  · simp [hm, hash2, hashAccs, initAccs]

/-- Settles O39: RESULT0 and RESULT1 are functions of the bytes, the seeds and the mode. -/
theorem resultsDependOnlyOnTheInput : Obligations.ResultsDependOnlyOnTheInput := by
  intro s s' hp hp' hs hs' hspoiled hspoiled' hlen hseed1 hseed2 hmode hbytes
  have hdata : inputBytes s'.mem s'.latch.src s'.latch.len = inputBytes s.mem s.latch.src s.latch.len := by
    simpa [inputBytes, windowAddrs, hlen] using hbytes
  have hrun := quietCommandComputesTheHash s _ hp hs hspoiled rfl
  have hrun' := quietCommandComputesTheHash s' _ hp' hs' hspoiled' hdata.symm
  rw [hlen] at hrun'
  refine ⟨_, _, hrun, hrun', ?_, ?_⟩
  · simp only [hseed1, hseed2]
  · simp only [hseed1, hseed2, hmode]

end Sys2Proof.Machine
end

section
/-! A command with no host move listed, step by step (spec/41_absorb_sequence.md R137, R145, spec/70_reset_and_hazards.md R235):
it is busy until its last step, and comes to FINAL in the last step but one. -/

namespace Sys2Proof.Machine

/-- A finished command leaves the engine idle. -/
theorem State.Reads.phase_eq_idle {all : List Addr} {s : State} (h : s.Reads all 0) : s.phase = Phase.idle := by
  obtain ⟨todo, hleft, -⟩ := h
  generalize hn : 0 = m at hleft
  cases hleft with
  | init => exact absurd hn (stepCount_pos _).ne
  | absorb | final | wb => omega
  | idle hp => exact hp

/-- Where no host move is listed, a step takes one off the steps left, and a finished command stays finished. -/
theorem State.Reads.step_quiet {all : List Addr} {m : Nat} {s : State} (h : s.Reads all m) (hs : s.turns = []) :
    ∃ t, step s = .next t ∧ t.Reads all (m - 1) ∧ s.SameSetting t := by
  rw [step_nil hs]
  cases m with
  | zero => exact ⟨s, engineMove_of_idle h.phase_eq_idle, h, ⟨rfl, rfl, rfl⟩⟩
  | succ m =>
    obtain ⟨t, ht, hreads⟩ := engineMove_reads h
    exact ⟨t, ht, hreads, engineMove_sameSetting ht⟩

/-- A step that is not the last of a command shows in no result and no flag. -/
theorem State.Reads.sameView {all : List Addr} {m : Nat} {s t : State} (h : s.Reads all m) (hm : 1 < m) (hs : s.turns = [])
    (hstep : step s = .next t) : s.SameView t := by
  obtain ⟨m, rfl⟩ := Nat.exists_eq_add_of_lt hm
  rcases step_view hstep with hview | ⟨ts, ⟨hp, -⟩ | ⟨-, hp, -⟩ | ⟨rest, hr, -⟩⟩
  · exact hview
  · have := h.phase_eq_wb_iff.mp hp
    omega
  · exact absurd hp h.phase_ne_idle
  · rw [hs] at hr
    cases hr

theorem State.SameView.trans {s t u : State} (h : s.SameView t) (h' : t.SameView u) : s.SameView u :=
  ⟨h'.result0.trans h.result0, h'.result1.trans h.result1, h'.done.trans h.done, h'.mode.trans h.mode, h'.busy.trans h.busy⟩

/-- `n` steps with no host move listed, of a command that has `m` engine steps left. -/
theorem State.Reads.run_quiet {all : List Addr} (n : Nat) {m : Nat} {s : State} (h : s.Reads all m) (hs : s.turns = []) :
    ∃ t, State.run n s = .next t ∧ t.Reads all (m - n) ∧ t.latch = s.latch ∧ (n < m → s.SameView t) := by
  induction n generalizing m s with
  | zero => exact ⟨s, rfl, h, rfl, fun _ => ⟨rfl, rfl, rfl, rfl, rfl⟩⟩
  | succ n ih =>
    obtain ⟨u, hu, hreads, hset⟩ := h.step_quiet hs
    obtain ⟨t, ht, hreads', hlatch, hview⟩ := ih hreads (hset.turns.trans hs)
    refine ⟨t, (run_succ n hu).trans ht, ?_, hlatch.trans hset.latch, fun hn => ?_⟩
    · rwa [Nat.sub_sub, Nat.add_comm] at hreads'
    · exact (h.sameView (by omega) hs hu).trans (hview (by omega))

/-- A command just accepted has all its steps left. -/
theorem reads_of_init {s : State} (hp : s.phase = Phase.init) :
    s.Reads (s.reads ++ windowAddrs s.latch.src 0#32 s.latch.len.toNat) (stepCount s.latch.len.toNat) :=
  ⟨_, .init hp, rfl⟩

/-- Settles O37: before the last step a step is left, and no step so far was WB. -/
theorem commandIsBusyUntilItsLastStep : Obligations.CommandIsBusyUntilItsLastStep := by
  intro s n hp hs hn
  obtain ⟨t, ht, hreads, -, hview⟩ := (reads_of_init hp).run_quiet n hs
  obtain ⟨m, hm⟩ : ∃ m, stepCount s.latch.len.toNat - n = m + 1 := Nat.exists_eq_succ_of_ne_zero (by omega)
  rw [hm] at hreads
  exact ⟨t, ht, hreads.phase_ne_idle, (hview hn).done, (hview hn).result0, (hview hn).result1⟩

/-- At FINAL two steps are left. -/
theorem State.Reads.eq_two_of_final {all : List Addr} {n : Nat} {s : State} (h : s.Reads all n)
    (hp : s.phase = Phase.final) : n = 2 := by
  obtain ⟨todo, hleft, -⟩ := h
  rw [hp] at hleft
  cases hleft with
  | absorb hp => simp at hp
  | final => rfl
  | init hp | wb hp | idle hp => cases hp

/-- With an input that is not empty, only FINAL has two steps left. -/
theorem State.Reads.final_of_two {all : List Addr} {s : State} (h : s.Reads all 2) (hlen : 0 < s.latch.len.toNat) :
    s.phase = Phase.final := by
  obtain ⟨todo, hleft, -⟩ := h
  generalize hn : 2 = m at hleft
  cases hleft with
  | init =>
    rw [stepCount_of_pos hlen] at hn
    omega
  | absorb | wb | idle => omega
  | final hp => exact hp

/-- Settles O25: FINAL has two steps left, and where the input is empty there are two at INIT already. -/
theorem finalStepRunsTheAvalanche : Obligations.FinalStepRunsTheAvalanche := by
  refine ⟨fun _ => rfl, fun s n hp hs => ?_⟩
  obtain ⟨t, ht, hreads, hlatch, -⟩ := (reads_of_init hp).run_quiet n hs
  constructor
  · rintro ⟨t', ht', hfinal⟩
    obtain rfl : t = t' := Outcome.next_inj.mp (ht.symm.trans ht')
    have htwo := hreads.eq_two_of_final hfinal
    refine ⟨fun hempty => ?_, by omega⟩
    obtain rfl : n = 0 := by
      rw [hempty] at htwo
      simp [stepCount] at htwo
      omega
    obtain rfl : s = t := Outcome.next_inj.mp ht
    rw [hp] at hfinal
    cases hfinal
  · rintro ⟨hlen, hn⟩
    rw [← hn, Nat.add_sub_cancel_left] at hreads
    exact ⟨t, ht, hreads.final_of_two (by rw [hlatch]; bv_omega)⟩

end Sys2Proof.Machine
end

section
/-! A command among moves of the host that keep its duties (spec/41_absorb_sequence.md R142, R144, spec/20_memory.md R55,
R59): with what the host did taken back, the state goes through the steps of the command left alone, so both end in the same
results. -/

namespace Sys2Proof.Machine

/-- `s` with everything that is the host's, its memory and the moves to come among it, taken from `g`. -/
def State.withHost (s g : State) : State := { s.withHostFields g with mem := g.mem, turns := g.turns }

/-- What the host's moves do is taken back with the rest. -/
theorem State.HostMoved.withHost {s t : State} (h : s.HostMoved t) (g : State) : t.withHost g = s.withHost g := by
  rcases h with e | ⟨addr, v, -, e⟩ <;> rw [e] <;> rfl

/-- Both memories hold the same bytes in the command's window. -/
def State.SameInput (s g : State) : Prop :=
  ∀ addr, inWindow s.latch.src s.latch.len addr = true → s.mem.read addr.toNat = g.mem.read addr.toNat

/-- No byte of the window is written, so it reads as before. -/
theorem State.HostMoved.sameInput {s t g : State} (h : s.HostMoved t) (hmem : s.mem.wf = true) (hin : s.SameInput g) :
    t.SameInput g := by
  rcases h with e | ⟨addr, v, hout, e⟩ <;> rw [e]
  · exact hin
  · intro a ha
    have hne : addr.toNat ≠ a.toNat := fun h => by
      rw [BitVec.eq_of_toNat_eq h] at hout
      exact absurd (hout.symm.trans ha) (by decide)
    rw [Memory.read_write hmem, if_neg hne]
    exact hin a ha

theorem State.HostMoved.mem_wf {s t : State} (h : s.HostMoved t) (hmem : s.mem.wf = true) : t.mem.wf = true := by
  rcases h with e | ⟨addr, v, -, e⟩ <;> rw [e]
  · exact hmem
  · exact Memory.wf_write hmem addr v

/-- The bytes that are left lie in the window (R33). -/
def State.RestInWindow (s : State) : Prop :=
  (s.phase = Phase.block ∨ s.phase = Phase.tail) → s.k.toNat + s.rem.toNat ≤ s.latch.len.toNat

theorem State.HostMoved.restInWindow {s t : State} (h : s.HostMoved t) (hrest : s.RestInWindow) : t.RestInWindow := by
  rcases h with e | ⟨addr, v, -, e⟩ <;> rw [e] <;> exact hrest

theorem inWindow_of_mem_windowAddrs {src k len : Word} {n : Nat} (h : k.toNat + n ≤ len.toNat) {addr : Addr}
    (ha : addr ∈ windowAddrs src k n) : inWindow src len addr = true := by
  obtain ⟨j, hj, rfl⟩ := List.mem_map.mp ha
  have hj := List.mem_range.mp hj
  exact (inWindow_iff _ _ _).mpr ⟨k.toNat + j, by omega, by simp [BitVec.ofNat_add, BitVec.add_assoc]⟩

/-- Addresses of the window read the same through both memories. -/
theorem State.SameInput.portBytes_withHost {s g : State} (hin : s.SameInput g) {n : Nat}
    (hn : s.k.toNat + n ≤ s.latch.len.toNat) :
    (s.withHost g).portBytes (windowAddrs s.latch.src s.k n) = s.portBytes (windowAddrs s.latch.src s.k n) :=
  List.map_congr_left fun a ha => (hin a (inWindow_of_mem_windowAddrs hn ha)).symm

/-- REM is above 12 at BLOCK (R33). -/
theorem State.Reads.rem_of_block {all : List Addr} {n : Nat} {s : State} (h : s.Reads all n) (hp : s.phase = Phase.block) :
    12 < s.rem.toNat := by
  obtain ⟨todo, hleft, -⟩ := h
  rw [hp] at hleft
  cases hleft with
  | absorb hp => simpa using hp
  | init hp | final hp | wb hp | idle hp => cases hp

theorem absorbBlock_withHost {s g : State} (hin : s.SameInput g) (hn : s.k.toNat + 12 ≤ s.latch.len.toNat) :
    (s.withHost g).absorbBlock.drivePort (s.withHost g).blockAddrs = (s.absorbBlock.drivePort s.blockAddrs).withHost g := by
  have haddrs : (s.withHost g).blockAddrs = s.blockAddrs := rfl
  rw [State.absorbBlock, haddrs, State.blockAddrs, hin.portBytes_withHost hn]
  rfl

theorem absorbTail_withHost {s g : State} (hin : s.SameInput g) (hn : s.k.toNat + s.rem.toNat ≤ s.latch.len.toNat) :
    (s.withHost g).absorbTail.drivePort (s.withHost g).tailAddrs = (s.absorbTail.drivePort s.tailAddrs).withHost g := by
  have haddrs : (s.withHost g).tailAddrs = s.tailAddrs := rfl
  rw [State.absorbTail, haddrs, State.tailAddrs, hin.portBytes_withHost (by omega)]
  rfl

/-- BLOCK takes from REM what it adds to K. -/
theorem restInWindow_absorbBlock {s : State} (hrem : 12 < s.rem.toNat) (hn : s.k.toNat + s.rem.toNat ≤ s.latch.len.toNat) :
    (s.absorbBlock.drivePort s.blockAddrs).RestInWindow := by
  intro _
  simp only [State.drivePort_k, State.absorbBlock_k, State.drivePort_rem, State.absorbBlock_rem, State.drivePort_latch,
    State.absorbBlock_latch]
  bv_omega

/-- The engine's step reads nothing of the host's but bytes of the window: where these are the same, so is the step. -/
theorem engineMove_withHost {all : List Addr} {n : Nat} {s t g : State} (h : engineMove s = .next t)
    (hreads : s.Reads all (n + 1)) (hrest : s.RestInWindow) (hin : s.SameInput g) :
    engineMove (s.withHost g) = .next (t.withHost g) ∧ t.RestInWindow := by
  rcases engineMove_next h with ⟨hidle, -⟩ | ⟨-, i, hi, hx⟩
  · exact absurd hidle hreads.phase_ne_idle
  rw [engineMove_of_decodePhase (s := s.withHost g) hi]
  rcases decodePhase_ok hi with ⟨rfl, -⟩ | ⟨rfl, hp⟩ | ⟨rfl, hp⟩ | ⟨rfl, -⟩ | ⟨rfl, -⟩ | ⟨rfl, -⟩
  · obtain rfl := Outcome.next_inj.mp hx
    exact ⟨rfl, fun _ => by simp⟩
  · obtain rfl := Outcome.next_inj.mp hx
    have hrem := hreads.rem_of_block hp
    have hn := hrest (.inl hp)
    exact ⟨congrArg _ (absorbBlock_withHost hin (by omega)), restInWindow_absorbBlock hrem hn⟩
  · obtain rfl := Outcome.next_inj.mp hx
    exact ⟨congrArg _ (absorbTail_withHost hin (hrest (.inr hp))), fun h => by simp at h⟩
  iterate 2
    obtain rfl := Outcome.next_inj.mp hx
    exact ⟨rfl, fun h => by simp at h⟩
  · cases hx

theorem engineMove_mem {s t : State} (h : engineMove s = .next t) : t.mem = s.mem := by
  rcases engineMove_next h with ⟨-, rfl⟩ | ⟨-, i, -, hx⟩
  · rfl
  · exact exec_mem hx

/-- `s` is a command with `n` engine steps left, which ends in `f` where all that is the host's is as in `g`. -/
structure EndsAs (g f : State) (all : List Addr) (n : Nat) (s : State) : Prop where
  reads : s.Reads all n
  rest  : s.RestInWindow
  memWf : s.mem.wf = true
  input : s.SameInput g
  ends  : State.run n (s.withHost g) = .next f

theorem EndsAs.host {g f : State} {all : List Addr} {n : Nat} {s t : State} (h : EndsAs g f all (n + 1) s)
    (hmoved : s.HostMoved t) : EndsAs g f all (n + 1) t where
  reads := (reads_followsCommand all).host h.reads hmoved
  rest  := hmoved.restInWindow h.rest
  memWf := hmoved.mem_wf h.memWf
  input := hmoved.sameInput h.memWf h.input
  ends  := by rw [hmoved.withHost, h.ends]

theorem EndsAs.engine {g f : State} {all : List Addr} {n : Nat} {s : State} (hg : g.turns = [])
    (h : EndsAs g f all (n + 1) s) : ∃ t, engineMove s = .next t ∧ EndsAs g f all n t := by
  obtain ⟨t, ht, hreads⟩ := engineMove_reads h.reads
  obtain ⟨ht', hrest⟩ := engineMove_withHost ht h.reads h.rest h.input
  refine ⟨t, ht, hreads, hrest, ?_, fun addr ha => ?_, ?_⟩
  · rw [engineMove_mem ht]
    exact h.memWf
  · rw [(engineMove_sameSetting ht).latch] at ha
    rw [engineMove_mem ht]
    exact h.input addr ha
  · rw [← run_succ n ((step_nil (s := s.withHost g) hg).trans ht'), h.ends]

theorem endsAs_followsCommand {g : State} (hg : g.turns = []) (f : State) (all : List Addr) :
    FollowsCommand (EndsAs g f all) where
  running h := h.reads.phase_ne_idle
  pop h := ⟨h.reads, h.rest, h.memWf, h.input, h.ends⟩
  host h hmoved := h.host hmoved
  engine h := h.engine hg

/-- A command just accepted ends, among the host's moves, as it does left alone. -/
theorem endsAs_of_init {s f : State} (hp : s.phase = Phase.init) (hmem : s.mem.wf = true)
    (h : State.run (stepCount s.latch.len.toNat) { s with turns := [] } = .next f) :
    EndsAs { s with turns := [] } f (s.reads ++ windowAddrs s.latch.src 0#32 s.latch.len.toNat)
      (stepCount s.latch.len.toNat) s where
  reads := reads_of_init hp
  rest  := fun hrest => by simp [hp] at hrest
  memWf := hmem
  input := fun _ _ => rfl
  ends  := h

/-- Settles O35: the run ends in the results that O34 gives for the command left alone. -/
theorem anyInterleavingComputesTheHash : Obligations.AnyInterleavingComputesTheHash := by
  intro s ts rest data hp hspoiled hseed hmem hdata hs hd hcount
  have hstart := endsAs_of_init hp hmem (quietCommandComputesTheHash { s with turns := [] } data hp rfl hspoiled hdata)
  rw [← hcount] at hstart
  obtain ⟨t, ht, hturns, hend⟩ := (endsAs_followsCommand rfl _ _).run_to_end hs hd hstart
  have hf := Outcome.next_inj.mp hend.ends
  have hresult0 : t.result0 = (hash2 data s.latch.seed1 s.latch.seed2).1 := congrArg State.result0 hf
  have hresult1 : t.result1 = if s.latch.mode = .dual then (hash2 data s.latch.seed1 s.latch.seed2).2 else 0x00000000#32 :=
    congrArg State.result1 hf
  refine ⟨t, ht, hturns, hend.reads.phase_eq_idle, congrArg State.done hf, fun hm => ⟨?_, ?_⟩, fun hm => ?_⟩
  · rw [hresult0, hseed hm, hash1]
  · simp [hresult1, hm]
  · simp [hresult0, hresult1, hm]

end Sys2Proof.Machine
end

section
/-! The mixing functions (spec/42_mix_final.md). A rotation carries the bits to other places (R165). Each mixing function is
the composition of its rows (R161, R163), and a row is a permutation of the triples: the words it leaves as they are tell what
it did to the others (R164). -/

namespace Sys2Proof.Machine

/-! ## The rotation -/

/-- The model's two shifts are the library's rotation. -/
theorem rotl32_eq_rotateLeft (x : Word) {k : Nat} (hk : k < 32) : rotl32 x k = x.rotateLeft k := by
  rw [rotl32, BitVec.rotateLeft_def, Nat.mod_eq_of_lt hk]

/-- A bit below `32 - k` goes up by `k`, one above comes round to the low end. -/
theorem getLsbD_rotl32 (x : Word) {k i : Nat} (hk : k < 32) (hi : i < 32) :
    (rotl32 x k).getLsbD ((i + k) % 32) = x.getLsbD i := by
  rw [rotl32_eq_rotateLeft x hk, BitVec.getLsbD_rotateLeft_of_le hk]
  obtain hlow | hround := Nat.lt_or_ge (i + k) 32
  · simp [Nat.mod_eq_of_lt hlow, hlow]
  · have hmod : (i + k) % 32 = i + k - 32 := by omega
    have hlt : i + k - 32 < k := by omega
    have hback : 32 - k + (i + k - 32) = i := by omega
    simp [hmod, hlt, hback]

/-- Adding `k` modulo 32 carries the places of the 1 bits of `x` to those of its rotation, one to one. -/
theorem card_ones_rotl32 (x : Word) {k : Nat} (hk : k < 32) :
    (Finset.univ.filter (fun i : Fin 32 => (rotl32 x k).getLsbD i.val = true)).card =
      (Finset.univ.filter (fun i : Fin 32 => x.getLsbD i.val = true)).card := by
  refine (Finset.card_equiv (Equiv.addRight ⟨k, hk⟩) fun i => ?_).symm
  simp only [Finset.mem_filter_univ, Equiv.coe_addRight, Fin.val_add, getLsbD_rotl32 x hk i.isLt]

/-- Settles O33: a rotation by `k` is a permutation of the 32 places, bit `i` going to place `(i + k) mod 32`. -/
theorem rotationKeepsTheBits : Obligations.RotationKeepsTheBits :=
  ⟨fun x _ _ hk => have hlt := Nat.lt_succ_of_le hk
    ⟨rfl, fun _ hi => getLsbD_rotl32 x hlt hi, card_ones_rotl32 x hlt⟩, by decide⟩

/-! ## The rows -/

/-- One row of `mix` (R161) with target `a`, source `c` and third word `b`. It answers the triple as the next row takes it:
there the target is this row's third word, the source its target and the third word its source. -/
def mixRow (k : Nat) : Accs ≃ Accs where
  toFun t := ⟨t.b, t.c + t.b, (t.a - t.c) ^^^ rotl32 t.c k⟩
  invFun t := ⟨(t.c ^^^ rotl32 (t.b - t.a) k) + (t.b - t.a), t.a, t.b - t.a⟩
  left_inv t := by simp
  right_inv t := by simp

/-- One row of `final` (R163) with target `c` and source `b`. It answers the triple as the next row takes it: there the
source is this row's target and the target the word this row does not name. -/
def finalRow (k : Nat) : Accs ≃ Accs where
  toFun t := ⟨t.b, (t.c ^^^ t.b) - rotl32 t.b k, t.a⟩
  invFun t := ⟨t.c, t.a, (t.b + rotl32 t.a k) ^^^ t.a⟩
  left_inv t := by simp
  right_inv t := by simp

/-- The names put back by one row's renaming: the seven rows of `final` rename once more than twice around. -/
def Accs.unrotate : Accs ≃ Accs where
  toFun t := ⟨t.c, t.a, t.b⟩
  invFun t := ⟨t.b, t.c, t.a⟩
  left_inv _ := rfl
  right_inv _ := rfl

theorem mixRow_apply (k : Nat) (a b c : Word) :
    mixRow k ⟨a, b, c⟩ = ⟨b, c + b, (a - c) ^^^ rotl32 c k⟩ := rfl

theorem finalRow_apply (k : Nat) (a b c : Word) :
    finalRow k ⟨a, b, c⟩ = ⟨b, (c ^^^ b) - rotl32 b k, a⟩ := rfl

theorem Accs.unrotate_apply (a b c : Word) : Accs.unrotate ⟨a, b, c⟩ = ⟨c, a, b⟩ := rfl

/-! ## The mixing functions row by row -/

/-- R161: after six rows every word has its own name again. -/
def mixRows : Accs ≃ Accs :=
  (mixRow 4).trans <| (mixRow 6).trans <| (mixRow 8).trans <| (mixRow 16).trans <| (mixRow 19).trans <| mixRow 4

/-- R163: the seven rows, and the names put back. -/
def finalRows : Accs ≃ Accs :=
  (finalRow 14).trans <| (finalRow 11).trans <| (finalRow 25).trans <| (finalRow 16).trans <| (finalRow 4).trans <|
    (finalRow 14).trans <| (finalRow 24).trans Accs.unrotate

theorem mixRows_apply (t : Accs) :
    mixRows t = mixRow 4 (mixRow 19 (mixRow 16 (mixRow 8 (mixRow 6 (mixRow 4 t))))) := rfl

theorem finalRows_apply (t : Accs) : finalRows t = Accs.unrotate
    (finalRow 24 (finalRow 14 (finalRow 4 (finalRow 16 (finalRow 25 (finalRow 11 (finalRow 14 t))))))) := rfl

theorem mix_eq_mixRows : mix = mixRows := by
  funext ⟨a, b, c⟩
  simp only [mix, mixRows_apply, mixRow_apply]

theorem finalMix_eq_finalRows : finalMix = finalRows := by
  funext ⟨a, b, c⟩
  simp only [finalMix, finalRows_apply, finalRow_apply, Accs.unrotate_apply]

/-- Settles O32: both functions are compositions of permutations. -/
theorem mixAndFinalAreBijections : Obligations.MixAndFinalAreBijections := by
  refine ⟨?_, ?_, by decide, by decide⟩
  · rw [mix_eq_mixRows]
    exact mixRows.bijective
  · rw [finalMix_eq_finalRows]
    exact finalRows.bijective

/-- Settles O30: each row of the statement is one `mixRow`, its words under the names that row gives them. -/
theorem mixRunsItsSixRows : Obligations.MixRunsItsSixRows := by
  refine ⟨fun row hrow a b c => ?_, by decide⟩
  have hmix (t u s : Word) (k : Nat) : mixRow k ⟨t, u, s⟩ = ⟨u, (row t s u k).2, (row t s u k).1⟩ := by
    rw [hrow, mixRow_apply, rotl32]
  simp only [mix_eq_mixRows, mixRows_apply, hmix]

/-- Settles O31: each row of the statement is one `finalRow`, its words under the names that row gives them. -/
theorem finalRunsItsSevenRows : Obligations.FinalRunsItsSevenRows := by
  refine ⟨fun row hrow a b c => ?_, by decide⟩
  have hfinal (u s t : Word) (k : Nat) : finalRow k ⟨u, s, t⟩ = ⟨s, row t s k, u⟩ := by
    rw [hrow, finalRow_apply, rotl32]
  simp only [finalMix_eq_finalRows, finalRows_apply, hfinal, Accs.unrotate_apply]

end Sys2Proof.Machine
end

section
/-! Command errors and the datapath (spec/60_exceptions.md R200 to R207): what a rejection writes, how long ERR stays, a hash
command racing WB, and that no step of a legal state faults. -/

namespace Sys2Proof.Machine

/-! ### Rejections -/

/-- Settles O17: both commands are issued, and issuing finds the engine busy. -/
theorem hashCommandWhileBusyIsDropped : Obligations.HashCommandWhileBusyIsDropped :=
  fun _ hp => ⟨issueHash_of_busy hp .single, issueHash_of_busy hp .dual⟩

/-- Settles O18: the meaning of ILLEGAL is `State.cmdError`, which writes these two fields. -/
theorem illegalWordSetsOnlyTheError : Obligations.IllegalWordSetsOnlyTheError := fun _ _ => rfl

/-- A step keeps the error flags, rejects a command, accepts one, or is a reset. -/
theorem step_error {s t : State} (h : step s = .next t) :
    (t.err = s.err ∧ t.errCode = s.errCode) ∨
    (t.err = true ∧ (t.errCode = 1#4 ∨ (t.errCode = 2#4 ∧ s.phase ≠ 0#3))) ∨
    (s.phase = 0#3 ∧ t.phase = 1#3) ∨ ∃ rest, s.turns = .reset :: rest := by
  obtain ⟨s0, hs0, hmove⟩ := step_cases h
  obtain ⟨ts, rfl⟩ := eq_withTurns hs0
  rcases hmove with ⟨-, rfl⟩ | ⟨-, rfl⟩ | ⟨-, rfl⟩ | ⟨-, rfl⟩ | ⟨-, rfl⟩ | ⟨-, rfl⟩ | ⟨i, hi, hx⟩ | ⟨a, v, -, -, rfl⟩ |
    ⟨rest, hr, -⟩
  iterate 6 exact .inl ⟨rfl, rfl⟩
  · rcases execHost_cases hi hx with rfl | ⟨v, rfl⟩ | ⟨v, rfl⟩ | ⟨v, rfl⟩ | ⟨v, rfl⟩ | ⟨v, rfl⟩ | rfl | ⟨hp, rfl⟩ |
      ⟨m, hp, rfl⟩
    iterate 6 exact .inl ⟨rfl, rfl⟩
    · exact .inr (.inl ⟨rfl, .inl rfl⟩)
    · exact .inr (.inl ⟨rfl, .inr ⟨rfl, hp⟩⟩)
    · exact .inr (.inr (.inl ⟨hp, rfl⟩))
  · exact .inl ⟨rfl, rfl⟩
  · exact .inr (.inr (.inr ⟨rest, hr⟩))

/-- Settles O43: of the four cases of `step_error`, the first two leave ERR set. -/
theorem errorStaysUntilAcceptanceOrReset : Obligations.ErrorStaysUntilAcceptanceOrReset := by
  intro s t herr h
  rcases step_error h with ⟨he, hc⟩ | ⟨he, hc⟩ | hend
  · exact .inl ⟨he.trans herr, .inl hc⟩
  · exact .inl ⟨he, .inr hc⟩
  · exact .inr hend

/-! ### A hash command racing WB -/

/-- Two listed moves in a row, of which the first leaves the list of moves alone. -/
theorem run_two {s t : State} {u v : Turn} {rest : List Turn} (hs : s.turns = u :: v :: rest)
    (hu : runTurn u { s with turns := v :: rest } = .next t) (ht : t.turns = v :: rest) :
    State.run 2 s = runTurn v { t with turns := rest } := by
  rw [run_succ 1 (by rw [step_cons hs, popTurn_cons hs, hu]), run_one, step_cons ht, popTurn_cons ht]

theorem runTurn_engine_of_wb {s : State} (hp : s.phase = Phase.wb) : runTurn .engine s = .next s.writeBack :=
  engineMove_of_decodePhase (i := .stepWb) (by rw [hp]; rfl)

/-- The two hash command words issue a hash, each in its mode (R108, R109). -/
theorem runTurn_hash_command {w : Word} (hw : w = 1#32 ∨ w = 2#32) (s : State) :
    runTurn (.command w) s = issueHash (if w = 2#32 then .dual else .single) s := by
  rcases hw with rfl | rfl <;> rfl

/-- Settles O20: before WB the command finds the engine busy, and after WB it finds it idle. -/
theorem commandRacingWriteBackHasBothOutcomes : Obligations.CommandRacingWriteBackHasBothOutcomes := by
  intro s w rest hp hw
  refine ⟨fun hs => ?_, fun hs => ?_, results_of_unspoiled⟩
  · have hbusy : s.phase ≠ Phase.idle := by simp [hp]
    have hreject := issueHash_of_busy (s := { s with turns := .engine :: rest }) hbusy
    rw [run_two hs ((runTurn_hash_command hw _).trans (hreject _)) rfl]
    exact ⟨_, runTurn_engine_of_wb hp⟩
  · have hwb := runTurn_engine_of_wb (s := { s with turns := .command w :: rest }) hp
    rw [run_two hs hwb rfl, runTurn_hash_command hw, issueHash_of_idle rfl]
    rcases hw with rfl | rfl <;> exact ⟨_, _, rfl⟩

/-! ### No step of a legal state faults -/

/-- The five steps of the datapath are total (R200). -/
theorem exec_datapath_next {i : Instr} (hi : i ∈ [Instr.stepInit, .stepBlock, .stepTail, .stepFinal, .stepWb]) (s : State) :
    ∃ t, exec i s = .next t := by
  simp only [List.mem_cons, List.not_mem_nil, or_false] at hi
  rcases hi with rfl | rfl | rfl | rfl | rfl <;> exact ⟨_, rfl⟩

theorem decodePhase_of_ne_idle {code : BitVec 3} (h : code ≠ Phase.idle) : ∃ i, decodePhase code = .ok i := by
  rw [decodePhase, if_neg h]
  repeat' split
  all_goals exact ⟨_, rfl⟩

/-- A phase code in use that is not IDLE selects a step of the datapath (R77). -/
theorem decodePhase_mem_datapath {code : BitVec 3} {i : Instr} (hcode : code.toNat ≤ 5) (h : decodePhase code = .ok i) :
    i ∈ [Instr.stepInit, .stepBlock, .stepTail, .stepFinal, .stepWb] := by
  rcases decodePhase_ok h with ⟨rfl, -⟩ | ⟨rfl, -⟩ | ⟨rfl, -⟩ | ⟨rfl, -⟩ | ⟨rfl, -⟩ | ⟨-, hunused⟩
  iterate 5 simp
  · omega

/-- In a state with a legal phase the engine's move answers a next state. -/
theorem engineMove_next_of_legal {s : State} (h : s.phase.toNat ≤ 5) : ∃ t, engineMove s = .next t := by
  by_cases hidle : s.phase = Phase.idle
  · exact ⟨s, engineMove_of_idle hidle⟩
  · obtain ⟨i, hi⟩ := decodePhase_of_ne_idle hidle
    rw [engineMove_of_decodePhase hi]
    exact exec_datapath_next (decodePhase_mem_datapath h hi) s

/-- An encoding of an instruction of the host runs to a next state or is refused. -/
theorem runFetched_ne_fault {f : Fetched} (hf : ∀ i, decode f = .ok i → i.isEngineStep = false) (s : State) (r : Fault) :
    runFetched f s ≠ .fault r := by
  intro h
  unfold runFetched at h
  split at h
  case h_1 i hi =>
    obtain ⟨t, ht⟩ := exec_host_next (hf i hi) s
    cases ht.symm.trans h
  case h_2 => cases h

theorem runFetched_mmio_ne_fault (acc : Access) (s : State) (r : Fault) : runFetched (.mmio acc) s ≠ .fault r :=
  runFetched_ne_fault (f := .mmio acc) (fun _ => access_notEngine) s r

theorem runFetched_cmd_ne_fault (w : Word) (s : State) (r : Fault) : runFetched (.cmd w) s ≠ .fault r := by
  refine runFetched_ne_fault (fun i hi => ?_) s r
  cases hi
  exact decodeCommandWord_notEngineStep w

/-- Only the engine's move can fault, and in a state with a legal phase it does not (R79). -/
theorem runTurn_ne_fault_of_legal {s : State} (h : s.phase.toNat ≤ 5) (u : Turn) (r : Fault) : runTurn u s ≠ .fault r := by
  cases u with
  | engine =>
    obtain ⟨t, ht⟩ : ∃ t, runTurn .engine s = .next t := engineMove_next_of_legal h
    simp [ht]
  | access acc => exact runFetched_mmio_ne_fault acc s r
  | command w => exact runFetched_cmd_ne_fault w s r
  | bus b =>
    simp only [runTurn]
    split
    case h_1 acc _ => exact runFetched_mmio_ne_fault acc s r
    case h_2 => exact nofun
  | memWrite | reset => exact nofun

theorem step_ne_fault_of_legal {s : State} (h : s.phase.toNat ≤ 5) (r : Fault) : step s ≠ .fault r := by
  cases hs : s.turns with
  | nil =>
    rw [step_nil hs]
    exact runTurn_ne_fault_of_legal h .engine r
  | cons u rest =>
    rw [step_cons hs]
    exact runTurn_ne_fault_of_legal (s := s.popTurn) h u r

/-- Settles O53: the datapath is total, and in a state that meets the invariant the phase is legal. -/
theorem datapathNeverFaults : Obligations.DatapathNeverFaults :=
  ⟨fun _ s hi => exec_datapath_next hi s, fun _ r ⟨hphase, _⟩ => step_ne_fault_of_legal hphase r⟩

end Sys2Proof.Machine
end

section
/-! A platform of several engines (spec/60_exceptions.md R212): the host memory is one, each engine keeps its number and so its
window, and a move of one engine, which a bus access selects by its window, leaves the others as they are. -/

namespace Sys2Proof.Machine

/-! ### A move of one engine -/

/-- The engines of a platform stay, and all but the mover stay as they are. -/
theorem Platform.moveOne_getElem? {p q : Platform} {k j : Nat} {f : State → Result} {e : State}
    (h : p.moveOne k f = .next q) (hj : p[j]? = some e) : ∃ e', q[j]? = some e' ∧ (k ≠ j → e' = e) := by
  rcases Platform.moveOne_next h with ⟨-, rfl⟩ | ⟨e0, t, hk, -, rfl⟩
  · exact ⟨e, hj, fun _ => rfl⟩
  · by_cases hkj : k = j
    · subst hkj
      obtain ⟨hlt, -⟩ := List.getElem?_eq_some_iff.mp hk
      exact ⟨t, List.getElem?_set_self hlt, fun hne => absurd rfl hne⟩
    · exact ⟨e, (List.getElem?_set_ne hkj).trans hj, fun _ => rfl⟩

/-- What the move of an engine keeps of its state, it keeps of every engine's. -/
theorem Platform.moveOne_map {α : Type} {p q : Platform} {k : Nat} {f : State → Result} (g : State → α)
    (hg : ∀ {e t}, f e = .next t → g t = g e) (h : p.moveOne k f = .next q) : q.map g = p.map g := by
  rcases Platform.moveOne_next h with ⟨-, rfl⟩ | ⟨e, t, hk, hft, rfl⟩
  · rfl
  · obtain ⟨hlt, rfl⟩ := List.getElem?_eq_some_iff.mp hk
    rw [List.map_set, hg hft, ← List.getElem_map g (h := by simpa using hlt), List.set_getElem_self]

theorem Platform.moveOne_of_refused {p : Platform} {k : Nat} {f : State → Result} {e : State} {r : Refusal}
    (hk : p[k]? = some e) (h : f e = .refused r) : p.moveOne k f = .refused r := by
  simp [Platform.moveOne, hk, h]

/-- Settles O54: a written byte is mapped over the engines, and any other move is one engine's. -/
theorem enginesShareOnlyHostMemory : Obligations.EnginesShareOnlyHostMemory := by
  intro p q m j e h hj
  rcases Platform.step_next h with ⟨addr, v, rfl, rfl⟩ | ⟨k, u, hmover, hmove, -⟩
  · refine ⟨e.hostStore addr v, by simp [hj], fun addr' v' heq => ?_, fun hne => absurd rfl (hne addr v)⟩
    cases heq
    exact ⟨rfl, rfl⟩
  · obtain ⟨f, hf, hkept⟩ := Platform.moveOne_getElem? hmove hj
    refine ⟨f, hf, fun addr v heq => ?_, fun _ hne => hkept fun hkj => hne (hkj ▸ hmover)⟩
    rw [heq] at hmover
    cases hmover

/-! ### What an engine's own move keeps -/

theorem exec_engineNo {i : Instr} {s t : State} (h : exec i s = .next t) : t.engineNo = s.engineNo := by
  rcases exec_cases h with rfl | ⟨v, rfl⟩ | ⟨v, rfl, -⟩ | ⟨v, rfl, -⟩ | ⟨v, rfl, -⟩ | ⟨v, rfl, -⟩ | rfl | ⟨-, rfl⟩ |
    ⟨m, -, rfl⟩ | ⟨-, rfl⟩ | ⟨-, rfl⟩ | ⟨-, rfl⟩ | ⟨-, rfl⟩ | ⟨-, rfl⟩ <;> rfl

/-- A move runs an instruction, passes, writes host memory, or is a reset. -/
theorem runTurn_exec {u : Turn} {s t : State} (h : runTurn u s = .next t) :
    (∃ i, exec i s = .next t) ∨ t = s ∨ (∃ addr v, u = .memWrite addr v ∧ t = s.hostStore addr v) ∨ t = s.assertReset := by
  rcases runTurn_next h with ⟨-, he⟩ | ⟨-, i, -, -, hx⟩ | ⟨w, -, hx⟩ | hstore | ⟨-, ht⟩
  · rcases engineMove_next he with ⟨-, ht⟩ | ⟨-, i, -, hx⟩
    · exact .inr (.inl ht)
    · exact .inl ⟨i, hx⟩
  · exact .inl ⟨i, hx⟩
  · exact .inl ⟨_, hx⟩
  · exact .inr (.inr (.inl hstore))
  · exact .inr (.inr (.inr ht))

/-- No move changes the engine's number, and so its window. -/
theorem runTurn_engineNo {u : Turn} {s t : State} (h : runTurn u s = .next t) : t.engineNo = s.engineNo := by
  rcases runTurn_exec h with ⟨i, hx⟩ | rfl | ⟨addr, v, -, rfl⟩ | rfl
  · exact exec_engineNo hx
  iterate 3 rfl

/-- Only the host's write of a byte changes memory (R36). -/
theorem runTurn_mem {u : Turn} {s t : State} (hu : ∀ addr v, u ≠ .memWrite addr v) (h : runTurn u s = .next t) :
    t.mem = s.mem := by
  rcases runTurn_exec h with ⟨i, hx⟩ | rfl | ⟨addr, v, hw, -⟩ | rfl
  · exact exec_mem hx
  · rfl
  · exact absurd hw (hu addr v)
  · rfl

/-! ### One host memory -/

/-- The engines' memories stay as they are but for a byte that the host writes, in all of them (R36). -/
theorem Platform.step_mem {m : PlatformMove} {p q : Platform} (h : Platform.step m p = .next q) :
    q.map State.mem = p.map State.mem ∨ ∃ addr v, q = p.map (fun e => e.hostStore addr v) := by
  rcases Platform.step_next h with ⟨addr, v, -, hq⟩ | ⟨k, u, -, hmove, hu⟩
  · exact .inr ⟨addr, v, hq⟩
  · refine .inl (Platform.moveOne_map State.mem (fun ht => runTurn_mem (fun addr v hw => ?_) ht) hmove)
    rcases hu with ⟨-, rfl⟩ | ⟨b, -, rfl⟩ | ⟨-, rfl⟩ <;> cases hw

theorem Platform.step_engineNo {m : PlatformMove} {p q : Platform} (h : Platform.step m p = .next q) :
    q.map State.engineNo = p.map State.engineNo := by
  rcases Platform.step_next h with ⟨addr, v, -, rfl⟩ | ⟨k, u, -, hmove, -⟩
  · simp
  · exact Platform.moveOne_map State.engineNo runTurn_engineNo hmove

/-- Settles O57: the memories stay, or the same byte is written to equal memories. -/
theorem enginesSeeOneHostMemory : Obligations.EnginesSeeOneHostMemory := by
  intro p q m h hsame
  refine ⟨?_, Platform.step_engineNo h⟩
  rcases Platform.step_mem h with hmem | ⟨addr, v, rfl⟩
  · have before : ∀ f ∈ q, ∃ e ∈ p, e.mem = f.mem := fun f hf =>
      List.mem_map.mp (hmem ▸ List.mem_map_of_mem (f := State.mem) hf)
    intro f hf f' hf'
    obtain ⟨e, he, hef⟩ := before f hf
    obtain ⟨e', he', hef'⟩ := before f' hf'
    rw [← hef, ← hef', hsame e he e' he']
  · intro f hf f' hf'
    obtain ⟨e, he, rfl⟩ := List.mem_map.mp hf
    obtain ⟨e', he', rfl⟩ := List.mem_map.mp hf'
    simp only [State.hostStore_mem, hsame e he e' he']

/-! ### Each engine's own window -/

theorem windowReached_of_resolve {b : BusAccess} {acc : Access} {e : State} (h : b.resolve e.windowBase = .ok acc) :
    e.windowReached b = true := by
  simp only [State.windowReached, h]

/-- An access that reaches one engine's window only is that engine's. -/
theorem Platform.target_of_reached {p : Platform} {b : BusAccess} {k : Nat} {e : State} (hk : p[k]? = some e)
    (hreach : e.windowReached b = true) (hothers : ∀ j e', p[j]? = some e' → j ≠ k → e'.windowReached b = false) :
    p.target b = some k := by
  obtain ⟨hlt, rfl⟩ := List.getElem?_eq_some_iff.mp hk
  refine List.findIdx?_eq_some_iff_getElem.mpr ⟨hlt, hreach, fun j hj => ?_⟩
  simp [hothers j _ (List.getElem?_eq_getElem (hj.trans hlt)) hj.ne]

/-- Settles O56: the engine of the window makes the access at that offset. -/
theorem busAccessMovesTheEngineOfItsWindow : Obligations.BusAccessMovesTheEngineOfItsWindow := by
  rintro p k e acc b hk rfl hothers
  have hresolve := resolve_base acc.dir acc.size acc.off acc.data e.windowBase
  have hstep := Platform.target_of_reached hk (windowReached_of_resolve hresolve) hothers
  have hturn := runTurn_bus_of_resolve (s := e) hresolve
  simp only [Platform.step, hstep]
  refine ⟨fun hsize hoff => ?_, fun hbad => ?_⟩
  · obtain ⟨i, hi⟩ := decodeAccess_defined (Access.defined_iff.mpr ⟨hsize, hoff⟩)
    obtain ⟨t, ht⟩ := exec_host_next (access_notEngine hi) e
    refine ⟨i, t, hi, ht, Platform.moveOne_of_next hk ?_⟩
    rw [hturn, ← ht]
    exact runFetched_of_decode (f := .mmio acc) hi e
  · refine Platform.moveOne_of_refused hk (hturn.trans (runFetched_of_not_defined (fun hdef => ?_) e))
    obtain ⟨hsize, hoff⟩ := Access.defined_iff.mp hdef
    exact hbad.elim (absurd hsize) (absurd hoff)

end Sys2Proof.Machine
end

section
/-! Reset and hazards (spec/70_reset_and_hazards.md R230, R231, R234): which host writes turn a command's results into draws,
what WB then writes, and what a reset leaves. -/

namespace Sys2Proof.Machine

/-! ### Spoiling a command -/

/-- The phase INIT is entered by acceptance only: every other meaning keeps the phase or leads to a later one. -/
theorem exec_enters_init {i : Instr} {s t : State} (h : exec i s = .next t) (hs : s.phase ≠ Phase.init)
    (ht : t.phase = Phase.init) : ∃ m, s.phase = Phase.idle ∧ t = s.accept m := by
  rcases exec_cases h with rfl | ⟨v, rfl⟩ | ⟨v, rfl, -⟩ | ⟨v, rfl, -⟩ | ⟨v, rfl, -⟩ | ⟨v, rfl, -⟩ | rfl | ⟨-, rfl⟩ | hacc |
    ⟨-, rfl⟩ | ⟨-, rfl⟩ | ⟨-, rfl⟩ | ⟨-, rfl⟩ | ⟨-, rfl⟩
  iterate 8 exact absurd ht hs
  · exact hacc
  · rcases initNext_cases s.latch.len with ⟨e, -⟩ | ⟨e, -⟩ | ⟨e, -⟩ <;> simp [e] at ht
  · rcases blockNext_cases (s.rem - 12#32) with ⟨e, -⟩ | ⟨e, -⟩ <;> simp [e] at ht
  iterate 3 cases ht

/-- A host write spoils the command that is running exactly where it falls into that command's input window (R234). -/
theorem hostStore_spoiled_iff (s : State) (addr : Addr) (v : Byte) :
    (s.hostStore addr v).spoiled = true ↔ s.spoiled = true ∨
      (s.phase ≠ Phase.idle ∧ ∃ i : Nat, i < s.latch.len.toNat ∧ addr = s.latch.src + BitVec.ofNat 32 i) := by
  rw [State.hostStore_spoiled, Bool.or_eq_true, Bool.and_eq_true, busy_iff, inWindow_iff]

/-- Settles O28: a command comes to INIT by acceptance, which clears `spoiled`, and a host write is `State.hostStore`. -/
theorem hostWriteSpoilsOnlyTheRunningWindow : Obligations.HostWriteSpoilsOnlyTheRunningWindow := by
  refine ⟨fun i s t h hidle hinit => ?_, fun s addr v rest hs => ?_⟩
  · obtain ⟨m, -, rfl⟩ := exec_enters_init h (by simp [hidle]) hinit
    rfl
  · refine ⟨State.hostStore { s with turns := rest } addr v, ?_, rfl, hostStore_spoiled_iff _ addr v⟩
    rw [step_cons hs, popTurn_cons hs]
    rfl

/-! ### WB of a spoiled command -/

/-- The results of a command whose window the host wrote while BUSY (R234, U2). -/
theorem results_of_spoiled {s : State} (h : s.spoiled = true) :
    s.results = (Config.freeWord s.engineNo s.draws, Config.freeWord s.engineNo (s.draws + 1)) :=
  if_pos h

/-- Settles O27: the results are two draws, and they are counted. -/
theorem writeBackOfASpoiledCommandDraws : Obligations.WriteBackOfASpoiledCommandDraws := by
  intro s h
  simp [exec, execStepWb, State.writeBack, results_of_spoiled h, h]

/-! ### Reset -/

/-- Settles O49: the visible registers and STATUS are those of `State.reset`, and an idle engine has no step. -/
theorem resetClearsEveryVisibleRegister : Obligations.ResetClearsEveryVisibleRegister := by
  intro s rest hs
  have hstep : step s = .next (State.assertReset { s with turns := rest }) := by
    rw [step_cons hs, popTurn_cons hs]
    rfl
  have hstatus : (State.assertReset { s with turns := rest }).statusWord = State.reset.statusWord := rfl
  obtain ⟨-, hzero, -⟩ := resetStateIsAsTheTableSays
  exact ⟨_, hstep, rfl, rfl, rfl, rfl, rfl, rfl, rfl, rfl, rfl, rfl, rfl, rfl, hstatus.trans hzero, rfl, rfl, rfl,
    engineMove_of_idle rfl⟩

end Sys2Proof.Machine
end
